-- ==== Sys2Proof/Config.lean ====
section
/-! DEFINITION. The parameters of 00_scope.md: R5 (fixed by the document) and R6 (open, taken at the
spec's defaults). -/

namespace Sys2Proof

/-- PREAMBLE_MIN of R5: the least number of leading 1-bits before the start 0-bit. -/
abbrev Config.preambleMin : Nat := 16

/-- W_OP of R5. -/
abbrev Config.wOp : Nat := 2

/-- W_PHY of R5. -/
abbrev Config.wPhy : Nat := 5

/-- W_REG of R5. -/
abbrev Config.wReg : Nat := 5

/-- W_TA of R5. -/
abbrev Config.wTa : Nat := 2

/-- W_DATA of R5. -/
abbrev Config.wData : Nat := 16

/-- DECODE_PHASE of R5: the clock phase the frame decoder operates at. -/
abbrev Config.decodePhase : Bool := false

/-- MAXCOUNT of R6: the largest `count` the RDBITS command takes (D8). -/
abbrev Config.maxCount : Nat := 16

/-- TSW of R6, at the spec's default. DESIGN CHOICE (log 1), safe: timestamps are only copied. -/
abbrev Config.tsw : Nat := 64

/-- AW of R6, at the spec's default. DESIGN CHOICE (log 2), safe: a longer capture is refused. -/
abbrev Config.aw : Nat := 32

/-- The largest number of samples R6 admits: N <= 2^AW - 1. -/
abbrev Config.maxSamples : Nat := 2 ^ Config.aw - 1

end Sys2Proof
end

