-- ==== Sys2Proof/Word.lean ====
section
/-! DEFINITION. The words of the two encodings of 30_encoding.md and the timestamp type. -/

namespace Sys2Proof

/-- The timestamp type `Ts` of R6: the block copies timestamps and computes nothing on them. -/
abbrev Ts := BitVec Config.tsw

/-- The host command word of R88: `opc` in bits 7:5, `opd` in bits 4:0. -/
abbrev CommandWord := BitVec 8

/-- The frame body word `W` of R81: bit 31 is recovered first, bit 0 last. -/
abbrev BodyWord := BitVec 32

/-- A word of one of the two encodings: one byte of the command port, or one serial frame body. -/
inductive Word where
  | command (w : CommandWord)
  | body (w : BodyWord)
  deriving DecidableEq, Repr

end Sys2Proof
end

