-- ==== Sys2Proof/Machine/State.lean ====
section
/-! DEFINITION. The state of the machine: the registers of 10_state.md, the session's sample memory,
the host's inputs still to come and the outputs. -/

namespace Sys2Proof.Machine

/-- One sample record (`ts`, `clk`, `dat`) of R60. -/
structure Sample where
  ts : Ts
  clk : Bool
  dat : Bool
  deriving DecidableEq, Repr

/-- The sample memory `S` of R60: record `i` of the list is `S[i]`, the length is `N`. A list in index
order has one form only, so equal memories are equal data (log 3). -/
structure Memory where
  records : List Sample
  deriving DecidableEq, Repr

/-- `status` of R24, in the order of its codes 0 to 7. -/
inductive Status where
  | idle
  | raw
  | decode
  | doneClean
  | doneTrunc
  | errPreamble
  | errStart
  | errMode
  deriving DecidableEq, Repr

/-- `field` of R25, in the order of its codes 0 to 6 (code 7 is never taken, U14). -/
inductive FrameField where
  | pre
  | st1
  | op
  | phy
  | reg
  | ta
  | data
  deriving DecidableEq, Repr

/-- `raw_status` of R28, codes 0 to 2 (code 3 is never taken, U14). -/
inductive RawStatus where
  | none
  | ok
  | eos
  deriving DecidableEq, Repr

/-- `viol_kind` of R34, codes 0 and 1. -/
inductive ViolKind where
  | preambleShort
  | startMismatch
  deriving DecidableEq, Repr

/-- The seven conditions of R230, in its order. -/
inductive Condition where
  | endOfStreamRaw
  | endOfStreamClean
  | endOfStreamTruncated
  | preambleShort
  | startMismatch
  | unsupportedMode
  | commandRefused
  deriving DecidableEq, Repr

/-- The decoded frame record of R83, as `pop_out` carries it (R36). `ts` is what `fr_ts` holds, which
is a value whenever a frame waits (log 10). -/
structure Frame where
  ts : Option Ts
  op : BitVec 2
  phy : BitVec 5
  reg : BitVec 5
  data : BitVec 16
  deriving DecidableEq, Repr

/-- A logical bit with its timestamp, as `bit_out` carries it (R36, R112). -/
structure LogicalBit where
  value : Bool
  ts : Ts
  deriving DecidableEq, Repr

/-- The registers of one block, R21 to R35: "exactly the registers of rules R21 to R35" (R20). -/
structure Regs where
  /-- R21 -/
  pos : Nat
  /-- R22 -/
  phase : Bool
  /-- R23 -/
  prevClk : Bool
  /-- R24 -/
  status : Status
  /-- R25 -/
  field : FrameField
  /-- R26 -/
  need : BitVec 5
  /-- R27 -/
  shreg : BitVec 16
  /-- R28 -/
  rawCnt : BitVec 5
  /-- R28 -/
  rawStatus : RawStatus
  /-- R29; `none` is "holds no value" -/
  firstTs : Option Ts
  /-- R29 -/
  firstTsValid : Bool
  /-- R30 -/
  ones : BitVec 5
  /-- R31; `none` is "no value" (D24) -/
  frTs : Option Ts
  /-- R31 -/
  frOp : BitVec 2
  /-- R31 -/
  frPhy : BitVec 5
  /-- R31 -/
  frReg : BitVec 5
  /-- R31 -/
  frData : BitVec 16
  /-- R32 -/
  frValid : Bool
  /-- R33 -/
  broadcom : Bool
  /-- R33 -/
  resync : Bool
  /-- R34 -/
  violSeen : Bool
  /-- R34 -/
  violKind : ViolKind
  /-- R35 -/
  cmdErr : Bool
  deriving DecidableEq, Repr

/-- What the host does in the ticks to come (ports 0 and 1 of R40; DESIGN CHOICE, log 4). -/
inductive HostInput where
  /-- A tick with `rst` = 1 and `cmd` on the command port; `capture` is the next session's sample memory
  where the host loads one (R70, R260, log 7). -/
  | reset (cmd : CommandWord) (capture : Option Memory)
  /-- A tick with `rst` = 0 and this word on the command port (R88). -/
  | command (w : CommandWord)
  /-- `cmd` stays NOP while the frame body at the cursor passes (log 5). -/
  | body
  deriving DecidableEq, Repr

/-- The machine: the registers of R20, with the session's parameters, the host's inputs and the
outputs that the step function has no other place for (log 3, log 4, log 9). -/
structure State where
  regs : Regs
  /-- `S` and `N`, fixed in a session (R67). -/
  mem : Memory
  /-- The host's inputs of the coming ticks, oldest first. -/
  inbox : List HostInput
  /-- `bit_out` of the last tick (R36). -/
  bitOut : Option LogicalBit
  /-- `pop_out` of the last tick (R36). -/
  popOut : Option Frame
  /-- The `bit_out` values of the session so far, oldest first (R124). -/
  bitLog : List LogicalBit
  /-- The `pop_out` values of the session so far, oldest first (R36, R148). -/
  popLog : List Frame
  deriving DecidableEq, Repr

/-- Faults. No step raises one: "The tick is total" (R200). They are raised by the host's port reads
(Machine/Ports.lean), where U9 asks for a fault. -/
inductive Fault where
  /-- `State.readFirstTs` while `first_ts_valid` is 0 (U9). Safe: the model gives no value. -/
  | firstTsAbsent
  /-- `State.readFrame` while `fr_valid` is 0 (U9). Safe: the model gives no value. -/
  | frameAbsent
  deriving DecidableEq, Repr

/-- Refusals. -/
inductive Refusal where
  /-- An instruction without a meaning; no arm of `exec` answers it. Safe. -/
  | notModelled (mnemonic : String)
  /-- A reset tick whose new capture has more than 2^AW - 1 records, which R6 excludes; raised by
  `State.resetTick`. Safe: the run stops. -/
  | captureTooLong
  deriving DecidableEq, Repr

/-- R41, register by register. -/
def Regs.reset : Regs where
  pos := 0
  phase := false
  prevClk := false
  status := .idle
  field := .pre
  need := 0
  shreg := 0
  rawCnt := 0
  rawStatus := .none
  firstTs := none
  firstTsValid := false
  ones := 0
  frTs := none
  frOp := 0
  frPhy := 0
  frReg := 0
  frData := 0
  frValid := false
  broadcom := false
  resync := false
  violSeen := false
  violKind := .preambleShort
  cmdErr := false

/-- The machine after reset: the registers of R41, no outputs (R260), and no capture and no host input
yet (DESIGN CHOICE, log 3 and log 4). -/
def State.reset : State where
  regs := Regs.reset
  mem := ⟨[]⟩
  inbox := []
  bitOut := none
  popOut := none
  bitLog := []
  popLog := []

end Sys2Proof.Machine
end

