-- ==== Sys2Proof/Machine/Operands.lean ====
section
/-! DEFINITION. The operand forms: bits in and out of words, most significant first (R7, R63, R82),
the numeric codes of the registers (R24, R25, R28, R34) and the two views of a raw result (R118). -/

namespace Sys2Proof.Machine

/-- R143: `(shreg << 1 | b) mod 2^16`. -/
def shiftIn (v : BitVec 16) (b : Bool) : BitVec 16 := (v <<< 1) ||| (BitVec.ofBool b).setWidth 16

/-- The bits of a word in time order, most significant first (R82). -/
def bitsMsbFirst {n : Nat} (v : BitVec n) : List Bool := (List.range n).map fun k => v.getMsbD k

/-- R82: the value of a field whose bits arrive in this order. -/
def packMsbFirst (n : Nat) (bits : List Bool) : BitVec n :=
  bits.foldl (fun v b => (v <<< 1) ||| (BitVec.ofBool b).setWidth n) 0

/-- The 32 bits of a frame body in time order: ST, OP, PHYAD, REGAD, TA, DATA (R80). -/
def bodyBits (op : BitVec 2) (phy reg : BitVec 5) (ta : BitVec 2) (data : BitVec 16) : List Bool :=
  bitsMsbFirst 0b01#2 ++ bitsMsbFirst op ++ bitsMsbFirst phy ++ bitsMsbFirst reg ++ bitsMsbFirst ta
    ++ bitsMsbFirst data

/-- R118, the integer view: `shreg[c-1:0]`, 0 when c = 0. -/
def Regs.rawInt (r : Regs) : Nat := r.shreg.toNat % 2 ^ r.rawCnt.toNat

/-- R118, the bit view: element k is `shreg[c-1-k]`. -/
def Regs.rawBits (r : Regs) : List Bool :=
  (List.range r.rawCnt.toNat).map fun k => r.shreg.getLsbD (r.rawCnt.toNat - 1 - k)

/-- The width of a counted field (R25); F_PRE and F_ST1 count nothing in `need` (R26). -/
def FrameField.width : FrameField → BitVec 5
  | .pre => 0
  | .st1 => 0
  | .op => BitVec.ofNat 5 Config.wOp
  | .phy => BitVec.ofNat 5 Config.wPhy
  | .reg => BitVec.ofNat 5 Config.wReg
  | .ta => BitVec.ofNat 5 Config.wTa
  | .data => BitVec.ofNat 5 Config.wData

/-- The codes of R24. -/
def Status.code : Status → BitVec 3
  | .idle => 0
  | .raw => 1
  | .decode => 2
  | .doneClean => 3
  | .doneTrunc => 4
  | .errPreamble => 5
  | .errStart => 6
  | .errMode => 7

/-- The codes of R25. -/
def FrameField.code : FrameField → BitVec 3
  | .pre => 0
  | .st1 => 1
  | .op => 2
  | .phy => 3
  | .reg => 4
  | .ta => 5
  | .data => 6

/-- The codes of R28. -/
def RawStatus.code : RawStatus → BitVec 2
  | .none => 0
  | .ok => 1
  | .eos => 2

/-- The codes of R34. -/
def ViolKind.code : ViolKind → BitVec 1
  | .preambleShort => 0
  | .startMismatch => 1

/-- Terminal statuses: R12, R147. -/
def Status.terminal : Status → Bool
  | .idle => false
  | .raw => false
  | .decode => false
  | .doneClean => true
  | .doneTrunc => true
  | .errPreamble => true
  | .errStart => true
  | .errMode => true

end Sys2Proof.Machine
end

