-- ==== Sys2Proof/Machine/Flags.lean ====
section
/-! DEFINITION. The flags of R39, what sets and what clears each, the yield predicate of R110 and the
classification of R182. -/

namespace Sys2Proof.Machine

/-- R202, R203: a refused command's whole effect. -/
def Regs.markCmdErr (r : Regs) : Regs := { r with cmdErr := true }

/-- R183, resynchronise mode: `viol_seen <- 1; viol_kind <- k`. -/
def Regs.markViolation (k : ViolKind) (r : Regs) : Regs := { r with violSeen := true, violKind := k }

/-- R117: the first bit of a raw read loads `first_ts`. -/
def Regs.latchFirstTs (t : Ts) (r : Regs) : Regs :=
  if r.firstTsValid then r else { r with firstTs := some t, firstTsValid := true }

/-- R117: an accepted RDBITS clears `first_ts`. -/
def Regs.clearFirstTs (r : Regs) : Regs := { r with firstTs := none, firstTsValid := false }

/-- R150, R141: `fr_valid <- 0`. -/
def Regs.clearFrValid (r : Regs) : Regs := { r with frValid := false }

/-- R182: `fr_wr` = 1 if `fr_op` == 1, else 0. -/
def Regs.frWr (r : Regs) : Bool := r.frOp == 1

/-- R110: `yields = (S[pos].clk == phase) and (pos == 0 or prev_clk != phase)`, where `x` is `S[pos]`. -/
def Regs.yields (r : Regs) (x : Sample) : Bool :=
  x.clk == r.phase && (r.pos == 0 || r.prevClk != r.phase)

/-- R111: a tick examines a sample in ST_RAW, and in ST_DECODE while no frame waits (R145). -/
def Regs.examining (r : Regs) : Bool :=
  match r.status with
  | .raw => true
  | .decode => !r.frValid
  | _ => false

end Sys2Proof.Machine
end

