-- ==== Sys2Proof/Machine/Ops.lean ====
section
/-! DEFINITION. The operations the meanings share: the sample memory, raising a condition (R230) and
the reset that is the only return from one (R239), the bit acceptance of SEQ and FD, and the
one-sample step of ED (R111). -/

namespace Sys2Proof.Machine

/-! ## The sample memory -/

/-- N, the content of port `n_samples` (R60). -/
def Memory.size (m : Memory) : Nat := m.records.length

/-- R6: N <= 2^AW - 1. -/
def Memory.wf (m : Memory) : Bool := decide (m.size ≤ Config.maxSamples)

/-- R62: `MemRead(i, 1)`; no record exists at N and above (R66). -/
def Memory.read (m : Memory) (i : Nat) : Option Sample := m.records[i]?

/-! ## Conditions -/

/-- R183: what a violation of kind `k` does, by the `resync` operand of START. -/
def Regs.violation (k : ViolKind) (r : Regs) : Regs :=
  if r.resync then { r.markViolation k with field := .pre, ones := 0 }
  else
    match k with
    | .preambleShort => { r with status := .errPreamble }
    | .startMismatch => { r with status := .errStart }

/-- Entering a condition (R230, column "recorded as"): nothing is saved and control goes nowhere
(R238); the registers it does not name freeze. -/
def Regs.raise (c : Condition) (r : Regs) : Regs :=
  match c with
  | .endOfStreamRaw => { r with status := .idle, rawStatus := .eos }
  | .endOfStreamClean => { r with status := .doneClean }
  | .endOfStreamTruncated => { r with status := .doneTrunc }
  | .preambleShort => r.violation .preambleShort
  | .startMismatch => r.violation .startMismatch
  | .unsupportedMode => { r with status := .errMode }
  | .commandRefused => r.markCmdErr

/-- R120 and R146: which EndOfStream an `Advance` that finds `pos` == N raises. -/
def Regs.endOfStream (r : Regs) : Regs :=
  match r.status with
  | .raw => r.raise .endOfStreamRaw
  | .decode => if r.field = .pre then r.raise .endOfStreamClean else r.raise .endOfStreamTruncated
  | _ => r

/-! ## Accepting a recovered bit -/

/-- R117, AcceptBit in ST_RAW. -/
def Regs.acceptRaw (b : Bool) (t : Ts) (r : Regs) : Regs :=
  let r1 := { r.latchFirstTs t with shreg := shiftIn r.shreg b, need := r.need - 1 }
  if r.need - 1 = 0 then { r1 with status := .idle, rawStatus := .ok } else r1

/-- R171 to R173, the preamble matcher. -/
def Regs.acceptPre (b : Bool) (t : Ts) (r : Regs) : Regs :=
  if b then { r with ones := if Config.preambleMin ≤ r.ones.toNat then 16 else r.ones + 1 }
  else if Config.preambleMin ≤ r.ones.toNat then { r with frTs := some t, field := .st1 }
  else r.raise .preambleShort

/-- R144, entry to a counted field: its width into `need`, `shreg` cleared. -/
def Regs.enterField (f : FrameField) (r : Regs) : Regs :=
  { r with field := f, need := f.width, shreg := 0 }

/-- R174 and R175, the start-code check. -/
def Regs.acceptSt1 (b : Bool) (r : Regs) : Regs :=
  if b then r.enterField .op else r.raise .startMismatch

/-- R181: the frame is complete, with `v` in `fr_data`. -/
def Regs.emitFrame (v : BitVec 16) (r : Regs) : Regs :=
  { r with frData := v, frValid := true, field := .pre, need := 0, shreg := 0, ones := 0 }

/-- R144, R176 to R180: the field whose last bit completed the value `v`. F_PRE and F_ST1 are not
counted and never get here (log 11). -/
def Regs.completeField (v : BitVec 16) (r : Regs) : Regs :=
  match r.field with
  | .pre => r
  | .st1 => r
  | .op => { r with frOp := v.setWidth 2 }.enterField .phy
  | .phy => { r with frPhy := v.setWidth 5 }.enterField .reg
  | .reg => { r with frReg := v.setWidth 5 }.enterField .ta
  | .ta => r.enterField .data
  | .data => r.emitFrame v

/-- R143: shift in; `need` is read before the decrement. -/
def Regs.acceptCounted (b : Bool) (r : Regs) : Regs :=
  let v := shiftIn r.shreg b
  if r.need - 1 = 0 then r.completeField v else { r with shreg := v, need := r.need - 1 }

/-- R142, AcceptBit in ST_DECODE. -/
def Regs.acceptDecode (b : Bool) (t : Ts) (r : Regs) : Regs :=
  match r.field with
  | .pre => r.acceptPre b t
  | .st1 => r.acceptSt1 b
  | .op => r.acceptCounted b
  | .phy => r.acceptCounted b
  | .reg => r.acceptCounted b
  | .ta => r.acceptCounted b
  | .data => r.acceptCounted b

/-- AcceptBit of R111: R117 in ST_RAW, R142 in ST_DECODE. -/
def Regs.acceptBit (b : Bool) (t : Ts) (r : Regs) : Regs :=
  match r.status with
  | .raw => r.acceptRaw b t
  | .decode => r.acceptDecode b t
  | _ => r

/-- R111: an examined sample moves `prev_clk` and `pos`, whether or not it yields (R113). -/
def Regs.examine (x : Sample) (r : Regs) : Regs := { r with prevClk := x.clk, pos := r.pos + 1 }

/-! ## The one-sample step -/

/-- The outputs of a tick that yields no bit and pops no frame (R36). -/
def State.quiet (s : State) : State := { s with bitOut := none, popOut := none }

/-- A tick that only rewrites registers. -/
def State.withRegs (r : Regs) (s : State) : State := { s.quiet with regs := r }

/-- A yielding sample's bit on the bit monitor (R112, R124). -/
def State.emitBit (x : Sample) (s : State) : State :=
  { s with bitOut := some ⟨x.dat, x.ts⟩, popOut := none, bitLog := s.bitLog ++ [⟨x.dat, x.ts⟩] }

/-- R111, `Advance`, on what the sample memory holds at the cursor: `none` is `pos` == N. -/
def State.advanceOn (o : Option Sample) (s : State) : State :=
  match o with
  | none => s.withRegs s.regs.endOfStream
  | some x =>
    if s.regs.yields x then
      { s.emitBit x with regs := (s.regs.examine x).acceptBit x.dat x.ts }
    else s.withRegs (s.regs.examine x)

/-- R111. -/
def State.advance (s : State) : State := s.advanceOn (s.mem.read s.regs.pos)

/-- What the status calls for in a tick whose command, if any, has acted (R200): an `Advance` in ST_RAW
and unstalled ST_DECODE, nothing elsewhere. -/
def State.runTick (s : State) : State := if s.regs.examining then s.advance else s.quiet

/-- R202, R203: `cmd_err <- 1`, and "the tick then proceeds as for NOP". -/
def State.refuseCommand (s : State) : State :=
  { s with regs := s.regs.raise .commandRefused }.runTick

/-! ## Reset -/

/-- R260: a tick with `rst` = 1; the host may load the next session's capture under it (R70, D21). -/
def State.resetTick (capture : Option Memory) (s : State) :
    Host.Outcome State Fault Refusal :=
  let fresh := { s.withRegs Regs.reset with bitLog := [], popLog := [] }
  match capture with
  | none => .next fresh
  | some m => if m.wf then .next { fresh with mem := m } else .refused .captureTooLong

/-! ## A frame body on the line -/

/-- The samples up to the next yielding one pass the block, and it takes the bit `b` from that one
(R80, R111): the block's response to one logical bit of a frame body (log 5). `xs` are the records
from the cursor on. -/
def State.takeBit (b : Bool) : List Sample → State → State
  | [], s => s.advanceOn none
  | x :: xs, s =>
    if s.regs.yields x then s.advanceOn (some { x with dat := b })
    else State.takeBit b xs (s.advanceOn (some x))

/-- One bit of a body: taken where the status examines samples, else it passes unseen (R111). -/
def State.deliver (s : State) (b : Bool) : State :=
  if s.regs.examining then State.takeBit b (s.mem.records.drop s.regs.pos) s else s.quiet

/-- The bits of a body in time order. -/
def State.deliverAll (bits : List Bool) (s : State) : State := bits.foldl State.deliver s

end Sys2Proof.Machine
end

