-- ==== Sys2Proof/Machine/Deserializer.lean ====
section
/-! DEFINITION. The commands of the deserializer: START (R141) and POP (R150). -/

namespace Sys2Proof.Machine

/-- R141, the command tick of START b, r. -/
def Regs.beginDecode (b r : Bool) (g : Regs) : Regs :=
  let g1 :=
    { g.clearFrValid with broadcom := b, resync := r, field := .pre, ones := 0, need := 0, shreg := 0 }
  if b then { g1 with status := .decode } else g1.raise .unsupportedMode

/-- R141: accepted only in ST_IDLE with `phase` == 0 (D11). -/
def execStart (b r : Bool) (s : State) : Host.Outcome State Fault Refusal :=
  if s.regs.status = .idle ∧ s.regs.phase = Config.decodePhase then
    .next (s.withRegs (s.regs.beginDecode b r))
  else .next s.refuseCommand

/-- The frame the frame registers hold (R31, R83). -/
def Regs.frame (r : Regs) : Frame := ⟨r.frTs, r.frOp, r.frPhy, r.frReg, r.frData⟩

/-- R150, the tick of an accepted POP. -/
def State.popFrame (s : State) : State :=
  { s with
    regs := s.regs.clearFrValid
    bitOut := none
    popOut := some s.regs.frame
    popLog := s.popLog ++ [s.regs.frame] }

/-- R150: accepted only in ST_DECODE with `fr_valid` == 1. -/
def execPop (s : State) : Host.Outcome State Fault Refusal :=
  if s.regs.status = .decode ∧ s.regs.frValid = true then .next s.popFrame
  else .next s.refuseCommand

end Sys2Proof.Machine
end

