-- ==== Sys2Proof/Machine/EdgeDetector.lean ====
section
/-! DEFINITION. The commands of the edge detector: SETPH (R115) and RDBITS (R117). Acceptance is R202;
a refused command sets `cmd_err` and the tick goes on as for NOP. -/

namespace Sys2Proof.Machine

/-- R115: `phase <- p`, accepted only in ST_IDLE. -/
def execSetph (p : Bool) (s : State) : Host.Outcome State Fault Refusal :=
  if s.regs.status = .idle then .next (s.withRegs { s.regs with phase := p })
  else .next s.refuseCommand

/-- R117, the command tick of RDBITS c. -/
def Regs.beginRaw (c : BitVec 5) (r : Regs) : Regs :=
  let r1 := { r.clearFirstTs with rawCnt := c, need := c, shreg := 0 }
  if c = 0 then { r1 with rawStatus := .ok } else { r1 with rawStatus := .none, status := .raw }

/-- R117: accepted only in ST_IDLE with c <= 16. -/
def State.readBitsCommand (c : BitVec 5) (s : State) : State :=
  if s.regs.status = .idle ∧ c.toNat ≤ Config.maxCount then s.withRegs (s.regs.beginRaw c)
  else s.refuseCommand

/-- RDBITS c, counts 0 to 15. -/
def execRdbits (c : BitVec 5) (s : State) : Host.Outcome State Fault Refusal :=
  .next (s.readBitsCommand c)

/-- RDBITS 16. -/
def execRdbits16 (s : State) : Host.Outcome State Fault Refusal :=
  .next (s.readBitsCommand 16)

end Sys2Proof.Machine
end

