-- ==== Sys2Proof/Machine/Frames.lean ====
section
/-! DEFINITION. The four frame rows (R80 to R84): what the block does while the 32 logical bits of a
frame body pass it, by R111 and the bit rules R170 to R183. A frame that meets the block in ST_DECODE
after its preamble is decoded and waits in the frame registers (R176 to R181). -/

namespace Sys2Proof.Machine

/-- FRAME.OP0 (R84, R176). -/
def execFrameOp0 (phy reg : BitVec 5) (ta : BitVec 2) (data : BitVec 16) (s : State) :
    Host.Outcome State Fault Refusal :=
  .next (s.deliverAll (bodyBits 0b00#2 phy reg ta data))

/-- FRAME.OP1 (R84, R176). -/
def execFrameOp1 (phy reg : BitVec 5) (ta : BitVec 2) (data : BitVec 16) (s : State) :
    Host.Outcome State Fault Refusal :=
  .next (s.deliverAll (bodyBits 0b01#2 phy reg ta data))

/-- FRAME.OP2 (R84, R176). -/
def execFrameOp2 (phy reg : BitVec 5) (ta : BitVec 2) (data : BitVec 16) (s : State) :
    Host.Outcome State Fault Refusal :=
  .next (s.deliverAll (bodyBits 0b10#2 phy reg ta data))

/-- FRAME.OP3 (R84, R176). -/
def execFrameOp3 (phy reg : BitVec 5) (ta : BitVec 2) (data : BitVec 16) (s : State) :
    Host.Outcome State Fault Refusal :=
  .next (s.deliverAll (bodyBits 0b11#2 phy reg ta data))

end Sys2Proof.Machine
end

