-- ==== Sys2Proof/Machine/HostPort.lean ====
section
/-! DEFINITION. NOP (R201) and the words that are no command (R203). -/

namespace Sys2Proof.Machine

/-- R201: no register is written by the command; the tick does what the status calls for. -/
def execNop (s : State) : Host.Outcome State Fault Refusal := .next s.runTick

/-- R203: a reserved or malformed word, in every status. -/
def execMalformed (s : State) : Host.Outcome State Fault Refusal := .next s.refuseCommand

end Sys2Proof.Machine
end

