-- ==== Sys2Proof/Syntax.lean ====
section
/-! DEFINITION. The instructions: one constructor for each row of spec/opcode_table.json. -/

namespace Sys2Proof

/-- One constructor per row of the table: the four frame rows of R84 and the six command rows of R89
(the two RDBITS rows share their mnemonic). -/
inductive Instr where
  /-- FRAME.OP0: a frame body with operation 0 (R81, R84). -/
  | frameOp0 (phy reg : BitVec 5) (ta : BitVec 2) (data : BitVec 16)
  /-- FRAME.OP1: a frame body with operation 1, the document's write. -/
  | frameOp1 (phy reg : BitVec 5) (ta : BitVec 2) (data : BitVec 16)
  /-- FRAME.OP2: a frame body with operation 2, the document's worked example. -/
  | frameOp2 (phy reg : BitVec 5) (ta : BitVec 2) (data : BitVec 16)
  /-- FRAME.OP3: a frame body with operation 3. -/
  | frameOp3 (phy reg : BitVec 5) (ta : BitVec 2) (data : BitVec 16)
  /-- NOP (R201). -/
  | nop
  /-- SETPH p (R115). -/
  | setph (p : Bool)
  /-- RDBITS c, the row of the counts 0 to 15 (R117); `c` is the whole 5-bit operand field `opd`. -/
  | rdbits (c : BitVec 5)
  /-- RDBITS 16, the row of the largest count (R117, D8). -/
  | rdbits16
  /-- START b, r: b = broadcom, r = resync (R141). -/
  | start (b r : Bool)
  /-- POP (R150). -/
  | pop
  deriving DecidableEq, Repr

end Sys2Proof
end

