-- ==== Sys2Proof/Machine/Dispatch.lean ====
section
/-! DEFINITION. One arm per instruction. -/

namespace Sys2Proof.Machine

def exec (i : Instr) (s : State) : Host.Outcome State Fault Refusal :=
  match i with
  | .frameOp0 phy reg ta data => Sys2Proof.Machine.execFrameOp0 phy reg ta data s
  | .frameOp1 phy reg ta data => Sys2Proof.Machine.execFrameOp1 phy reg ta data s
  | .frameOp2 phy reg ta data => Sys2Proof.Machine.execFrameOp2 phy reg ta data s
  | .frameOp3 phy reg ta data => Sys2Proof.Machine.execFrameOp3 phy reg ta data s
  | .nop => Sys2Proof.Machine.execNop s
  | .setph p => Sys2Proof.Machine.execSetph p s
  | .rdbits c => Sys2Proof.Machine.execRdbits c s
  | .rdbits16 => Sys2Proof.Machine.execRdbits16 s
  | .start b r => Sys2Proof.Machine.execStart b r s
  | .pop => Sys2Proof.Machine.execPop s

end Sys2Proof.Machine
end

