-- ==== Sys2Proof/WellFormed.lean ====
section
/-! DEFINITION. Which terms of `Instr` some word of the encodings stands for. -/

namespace Sys2Proof

/-- The one operand a type does not already bound: the count of the RDBITS row 0x40 to 0x4F has
`opd[4]` = 0 (R89; count 16 is the row `rdbits16`, and counts above 16 are refused words, R91). -/
def Instr.wf : Instr → Bool
  | .frameOp0 _ _ _ _ => true
  | .frameOp1 _ _ _ _ => true
  | .frameOp2 _ _ _ _ => true
  | .frameOp3 _ _ _ _ => true
  | .nop => true
  | .setph _ => true
  | .rdbits c => decide (c.toNat < Config.maxCount)
  | .rdbits16 => true
  | .start _ _ => true
  | .pop => true

end Sys2Proof
end

