-- ==== Sys2Proof/Decode.lean ====
section
/-! DEFINITION. The decoder of 30_encoding.md, total on every word and rejecting by name, and after it
the encoder, written from the same tables. -/

namespace Sys2Proof

/-- Why a word stands for no instruction. -/
inductive DecodeError where
  /-- `opc` is 101, 110 or 111 (R91). -/
  | reservedOpcode (opc : BitVec 3)
  /-- A reserved operand bit of NOP, SETPH, START or POP is not zero (R91). -/
  | reservedOperandBits
  /-- RDBITS with a count above 16 (R91). -/
  | countTooLarge
  /-- A body with W[31:30] = 00: not a start code (R86 (b)). -/
  | badStartCode
  /-- A body with W[31] = 1: a 1-bit extends the preamble and cannot begin a body (R85). -/
  | noStartBit
  deriving DecidableEq, Repr

/-- `opc` of R88. -/
def CommandWord.opc (w : CommandWord) : BitVec 3 := w.extractLsb' 5 3

/-- `opd` of R88. -/
def CommandWord.opd (w : CommandWord) : BitVec 5 := w.extractLsb' 0 5

/-- `opd` is the count of RDBITS, an unsigned 5-bit number (R90). -/
def decodeRdbits (opd : BitVec 5) : Except DecodeError Instr :=
  if opd.toNat < Config.maxCount then .ok (.rdbits opd)
  else if opd.toNat = Config.maxCount then .ok .rdbits16
  else .error .countTooLarge

/-- The command words of R89, refusing what R91 refuses. -/
def decodeCommand (w : CommandWord) : Except DecodeError Instr :=
  let opd := CommandWord.opd w
  match (CommandWord.opc w).toNat with
  | 0 => if opd = 0 then .ok .nop else .error .reservedOperandBits
  | 1 => if opd.extractLsb' 1 4 = 0 then .ok (.setph (opd.getLsbD 0)) else .error .reservedOperandBits
  | 2 => decodeRdbits opd
  | 3 =>
    if opd.extractLsb' 2 3 = 0 then .ok (.start (opd.getLsbD 0) (opd.getLsbD 1))
    else .error .reservedOperandBits
  | 4 => if opd = 0 then .ok .pop else .error .reservedOperandBits
  | _ => .error (.reservedOpcode (CommandWord.opc w))

/-- The frame row of an operation value (R84). -/
def frameOf (op : BitVec 2) (phy reg : BitVec 5) (ta : BitVec 2) (data : BitVec 16) : Instr :=
  match op.toNat with
  | 0 => .frameOp0 phy reg ta data
  | 1 => .frameOp1 phy reg ta data
  | 2 => .frameOp2 phy reg ta data
  | _ => .frameOp3 phy reg ta data

/-- The body word of R81: ST 31:30, OP 29:28, PHYAD 27:23, REGAD 22:18, TA 17:16, DATA 15:0. -/
def decodeBody (w : BodyWord) : Except DecodeError Instr :=
  if w.extractLsb' 30 2 = 0b01#2 then
    .ok (frameOf (w.extractLsb' 28 2) (w.extractLsb' 23 5) (w.extractLsb' 18 5) (w.extractLsb' 16 2)
      (w.extractLsb' 0 16))
  else if w.extractLsb' 30 2 = 0b00#2 then .error .badStartCode
  else .error .noStartBit

/-- The decoder over both encodings. -/
def decode : Word → Except DecodeError Instr
  | .command w => decodeCommand w
  | .body w => decodeBody w

/-- The body word with the given fields (R81). -/
def encodeBody (op : BitVec 2) (phy reg : BitVec 5) (ta : BitVec 2) (data : BitVec 16) : BodyWord :=
  0b01#2 ++ op ++ phy ++ reg ++ ta ++ data

/-- The command word with the given opcode and operand (R88). -/
def encodeCommand (opc : BitVec 3) (opd : BitVec 5) : CommandWord := opc ++ opd

/-- The word of an instruction (R81, R89). -/
def encode : Instr → Word
  | .frameOp0 phy reg ta data => .body (encodeBody 0b00#2 phy reg ta data)
  | .frameOp1 phy reg ta data => .body (encodeBody 0b01#2 phy reg ta data)
  | .frameOp2 phy reg ta data => .body (encodeBody 0b10#2 phy reg ta data)
  | .frameOp3 phy reg ta data => .body (encodeBody 0b11#2 phy reg ta data)
  | .nop => .command (encodeCommand 0b000#3 0)
  | .setph p => .command (encodeCommand 0b001#3 (0#4 ++ BitVec.ofBool p))
  | .rdbits c => .command (encodeCommand 0b010#3 c)
  | .rdbits16 => .command (encodeCommand 0b010#3 16)
  | .start b r => .command (encodeCommand 0b011#3 (0#3 ++ BitVec.ofBool r ++ BitVec.ofBool b))
  | .pop => .command (encodeCommand 0b100#3 0)

/-- The instruction the decoder reads from a row of spec/opcode_table.json: the table numbers a
command word's bits and a body word's bits as R88 and R81 do. -/
def decodeTableWord (nbits w : Nat) : Option Instr :=
  if nbits = 8 then (decode (.command (BitVec.ofNat 8 w))).toOption
  else if nbits = 32 then (decode (.body (BitVec.ofNat 32 w))).toOption
  else none

end Sys2Proof
end

