-- ==== Sys2Proof/Machine/Fetch.lean ====
section
/-! DEFINITION. Which instruction a step runs: the host's next input (R200), or the frame body at the
cursor, recovered by the read function of R116. -/

namespace Sys2Proof.Machine

/-- R110 on a list of records: `prev` is the level of the record before `x`, `none` at index 0. -/
def yieldsAfter (phase : Bool) (prev : Option Bool) (x : Sample) : Bool :=
  x.clk == phase && prev != some phase

/-- R116, `ReadBits`, on the records from the cursor on: the first `count` logical bits and how many
records were examined for them, or `none` where the records run out first (EndOfStream). -/
def scanBits (phase : Bool) : Option Bool → List Sample → Nat → Option (List LogicalBit × Nat)
  | _, _, 0 => some ([], 0)
  | _, [], _ + 1 => none
  | prev, x :: xs, n + 1 =>
    if yieldsAfter phase prev x then
      (scanBits phase (some x.clk) xs n).map fun r => (⟨x.dat, x.ts⟩ :: r.1, r.2 + 1)
    else (scanBits phase (some x.clk) xs (n + 1)).map fun r => (r.1, r.2 + 1)

/-- The clock level of the record before the cursor, by `prev_clk` (R23); `none` at index 0 (R110). -/
def Regs.prevLevel (r : Regs) : Option Bool := if r.pos = 0 then none else some r.prevClk

/-- The records from the cursor on. -/
def State.ahead (s : State) : List Sample := s.mem.records.drop s.regs.pos

/-- R116 at the cursor, with the phase in force. -/
def State.readBits (s : State) (count : Nat) : Option (List LogicalBit × Nat) :=
  scanBits s.regs.phase s.regs.prevLevel s.ahead count

/-- The body word the next 32 logical bits form (R81). -/
def State.bodyAtCursor (s : State) : Option BodyWord :=
  (s.readBits 32).map fun r => packMsbFirst 32 (r.1.map (·.value))

/-- What a step has to run. -/
inductive Fetched where
  /-- An instruction. -/
  | run (i : Instr)
  /-- A command word that is none (R203). -/
  | malformed (e : DecodeError)
  /-- A reset tick (R260). -/
  | reset (capture : Option Memory)
  deriving DecidableEq, Repr

/-- A command word, decoded. -/
def fetchCommand (w : CommandWord) : Fetched :=
  match decode (.command w) with
  | .ok i => .run i
  | .error e => .malformed e

/-- The frame at the cursor; where no well-formed body stands there, the host's NOP (log 5). -/
def State.fetchBody (s : State) : Fetched :=
  match s.bodyAtCursor with
  | none => .run .nop
  | some w =>
    match decode (.body w) with
    | .ok i => .run i
    | .error _ => .run .nop

/-- What the next step runs: the host's oldest input, or NOP where it has none (log 4). -/
def State.fetch (s : State) : Fetched :=
  match s.inbox with
  | [] => .run .nop
  | .reset _ capture :: _ => .reset capture
  | .command w :: _ => fetchCommand w
  | .body :: _ => s.fetchBody

/-- The host's oldest input is used up. -/
def State.takeInput (s : State) : State := { s with inbox := s.inbox.tail }

/-- Two records for each bit: one at the other clock level, then one at level `phase` that carries the
bit, so that each bit is yielded whatever came before (R110); `ts` counts records (log 6). -/
def bodyCapture (phase : Bool) (bits : List Bool) (t : Nat) : List Sample :=
  match bits with
  | [] => []
  | b :: rest =>
    ⟨BitVec.ofNat _ t, !phase, b⟩ :: ⟨BitVec.ofNat _ (t + 1), phase, b⟩ :: bodyCapture phase rest (t + 2)

/-- A command word as the host's next input. -/
def State.placeCommand (w : CommandWord) (s : State) : State :=
  { s with inbox := .command w :: s.inbox }

/-- A frame body at the cursor, with the block where a START and a 16-bit preamble leave it: in
ST_DECODE at phase 0 (R141, R43 (f)), in F_PRE with `ones` = 16 (R172) and no frame waiting (log 6). -/
def State.placeBody (w : BodyWord) (s : State) : State :=
  { s with
    regs :=
      { s.regs with
        status := .decode, phase := Config.decodePhase, broadcom := true, field := .pre, ones := 16,
        need := 0, shreg := 0, frValid := false }
    mem :=
      ⟨s.mem.records.take s.regs.pos
        ++ bodyCapture Config.decodePhase (bitsMsbFirst w) s.regs.pos⟩
    inbox := .body :: s.inbox }

end Sys2Proof.Machine
end

