-- ==== Sys2Proof/Machine/Step.lean ====
section
/-! DEFINITION. One step: the host's oldest input is taken and what it stands for is run (R200). -/

namespace Sys2Proof.Machine

/-- What was fetched, run. -/
def State.runFetched (f : Fetched) (s : State) : Host.Outcome State Fault Refusal :=
  match f with
  | .run i => exec i s
  | .malformed _ => execMalformed s
  | .reset capture => s.resetTick capture

/-- One step of the machine: a tick with the host's next input (R200), or the ticks of one frame body
(log 5). -/
def step (s : State) : Host.Outcome State Fault Refusal := s.takeInput.runFetched s.fetch

/-- The word of one row of spec/opcode_table.json where the next step fetches it: a command word as the
host's next input, a frame body in the capture at the cursor. -/
def State.withFetchWord (s : State) (nbits w : Nat) : State :=
  if nbits = 8 then s.placeCommand (BitVec.ofNat 8 w)
  else if nbits = 32 then s.placeBody (BitVec.ofNat 32 w)
  else s

end Sys2Proof.Machine
end

