-- ==== Sys2Proof/Machine/Ports.lean ====
section
/-! DEFINITION. The host-visible ports of R40 as a view of the state, and the host's reads of the two
port groups that may hold no value (U9). -/

namespace Sys2Proof.Machine

/-- The frame ports, port 16 of R40. -/
structure FramePorts where
  frTs : Option Ts
  frOp : BitVec 2
  frPhy : BitVec 5
  frReg : BitVec 5
  frData : BitVec 16
  frWr : Bool
  deriving DecidableEq, Repr

/-- The output ports of R40, with the numbers it gives them, and the two inputs the environment holds
constant or derives from `pos` (2 and 4). `prev_clk` has no port. -/
structure Ports where
  /-- 2 -/
  nSamples : BitVec Config.aw
  /-- 3 -/
  sAddr : BitVec Config.aw
  /-- 4: the record at `s_addr`; none at N, which is never read (R66) -/
  sRec : Option Sample
  /-- 5 -/
  status : BitVec 3
  /-- 6 -/
  field : BitVec 3
  /-- 7 -/
  need : BitVec 5
  /-- 8 -/
  pos : BitVec Config.aw
  /-- 9 -/
  phase : Bool
  /-- 10 -/
  rawValue : BitVec 16
  /-- 11 -/
  rawCnt : BitVec 5
  /-- 12 -/
  rawStatus : BitVec 2
  /-- 13: `first_ts`, a value only while `first_ts_valid` is 1 (D24) -/
  firstTs : Option Ts
  /-- 13 -/
  firstTsValid : Bool
  /-- 14 -/
  ones : BitVec 5
  /-- 15 -/
  frValid : Bool
  /-- 16: none while `fr_valid` is 0 (R31) -/
  frame : Option FramePorts
  /-- 17 -/
  broadcom : Bool
  /-- 17 -/
  resync : Bool
  /-- 18 -/
  violSeen : Bool
  /-- 18 -/
  violKind : BitVec 1
  /-- 19 -/
  cmdErr : Bool
  /-- 20 -/
  bitOut : Option LogicalBit
  /-- 21 -/
  popOut : Option Frame
  deriving DecidableEq, Repr

/-- Port 16 while a frame waits. -/
def Regs.framePorts (r : Regs) : FramePorts :=
  ⟨r.frTs, r.frOp, r.frPhy, r.frReg, r.frData, r.frWr⟩

/-- The ports as R40 lists them. -/
def State.ports (s : State) : Ports where
  nSamples := BitVec.ofNat _ s.mem.size
  sAddr := BitVec.ofNat _ s.regs.pos
  sRec := s.mem.read s.regs.pos
  status := s.regs.status.code
  field := s.regs.field.code
  need := s.regs.need
  pos := BitVec.ofNat _ s.regs.pos
  phase := s.regs.phase
  rawValue := s.regs.shreg
  rawCnt := s.regs.rawCnt
  rawStatus := s.regs.rawStatus.code
  firstTs := if s.regs.firstTsValid then s.regs.firstTs else none
  firstTsValid := s.regs.firstTsValid
  ones := s.regs.ones
  frValid := s.regs.frValid
  frame := if s.regs.frValid then some s.regs.framePorts else none
  broadcom := s.regs.broadcom
  resync := s.regs.resync
  violSeen := s.regs.violSeen
  violKind := s.regs.violKind.code
  cmdErr := s.regs.cmdErr
  bitOut := s.bitOut
  popOut := s.popOut

/-- A host that takes `first_ts` for a value: a fault while there is none (U9, R29). -/
def State.readFirstTs (s : State) : Except Fault Ts :=
  match s.ports.firstTs with
  | some t => .ok t
  | none => .error .firstTsAbsent

/-- A host that takes the frame ports for a frame: a fault while none waits (U9, R31). -/
def State.readFrame (s : State) : Except Fault FramePorts :=
  match s.ports.frame with
  | some f => .ok f
  | none => .error .frameAbsent

end Sys2Proof.Machine
end

