-- ==== Sys2Proof/Machine/Reference.lean ====
section
/-! DEFINITION. What the spec says of the whole machine in a form of its own, for statements to compare
the steps with: the tick of R200 as it is written, the capture notation of R95, the host programs
PULL and DECODEALL of R94, the output line of R92, and the big-step decoder of R149. Nothing in `step`
uses this file. -/

namespace Sys2Proof.Machine

/-! ## The tick (R200) -/

/-- `if cmd != NOP: cmd_err <- 1`. -/
def State.noteCommand (cmd : CommandWord) (s : State) : State :=
  if cmd = 0x00#8 then s else { s with regs := { s.regs with cmdErr := true } }

/-- ST_IDLE's line of R200: execute `cmd` if R202 accepts it, else `cmd_err <- 1`. The words are
those of R89. -/
def State.idleCommand (cmd : CommandWord) (s : State) : State :=
  if cmd = 0x00#8 then s
  else if cmd = 0x20#8 then { s with regs := { s.regs with phase := false } }
  else if cmd = 0x21#8 then { s with regs := { s.regs with phase := true } }
  else if 0x40#8 ≤ cmd ∧ cmd ≤ 0x50#8 then
    { s with regs := s.regs.beginRaw ((cmd - 0x40#8).setWidth 5) }
  else if 0x60#8 ≤ cmd ∧ cmd ≤ 0x63#8 ∧ s.regs.phase = false then
    { s with regs := s.regs.beginDecode (cmd.getLsbD 0) (cmd.getLsbD 1) }
  else { s with regs := { s.regs with cmdErr := true } }

/-- R200, line by line, for a tick without a new capture. -/
def tick (rst : Bool) (cmd : CommandWord) (s : State) : State :=
  let q := s.quiet
  if rst then { q with regs := Regs.reset, bitLog := [], popLog := [] }
  else
    match q.regs.status with
    | .idle => q.idleCommand cmd
    | .raw => (q.noteCommand cmd).advance
    | .decode =>
      if q.regs.frValid then
        if cmd = 0x80#8 then q.popFrame else q.noteCommand cmd
      else (q.noteCommand cmd).advance
    | .doneClean => q.noteCommand cmd
    | .doneTrunc => q.noteCommand cmd
    | .errPreamble => q.noteCommand cmd
    | .errStart => q.noteCommand cmd
    | .errMode => q.noteCommand cmd

/-- The state after an outcome: the next one, or `s` itself where the machine stops. -/
def State.after (s : State) (o : Host.Outcome State Fault Refusal) : State :=
  match o with
  | .next t => t
  | .fault _ => s
  | .refused _ => s

/-- The state after the instructions, one after another. -/
def runAll : List Instr → State → State
  | [], s => s
  | i :: is, s => runAll is (s.after (exec i s))

/-- A host that holds `cmd` at NOP for `n` ticks. -/
def nops (n : Nat) (s : State) : State := runAll (List.replicate n .nop) s

/-- One step with `w` on the command port. -/
def hostTick (w : CommandWord) (s : State) : State :=
  s.after (step { s with inbox := [.command w] })

/-! ## Captures (R95) -/

/-- The records of one character of `Trace`: `spb` at clock level 0, then `spb` at level 1; `i` is the
number of the first record. -/
def traceBit (spb : Nat) (t0 dt : Ts) (i : Nat) (b : Bool) : List Sample :=
  (List.range spb).map (fun k => ⟨t0 + dt * BitVec.ofNat _ (i + k), false, b⟩)
    ++ (List.range spb).map fun k => ⟨t0 + dt * BitVec.ofNat _ (i + spb + k), true, b⟩

/-- `Trace(bits, spb, t0, dt)` from record number `i` on. -/
def traceFrom (spb : Nat) (t0 dt : Ts) : Nat → List Bool → List Sample
  | _, [] => []
  | i, b :: bs => traceBit spb t0 dt i b ++ traceFrom spb t0 dt (i + 2 * spb) bs

/-- `Trace(bits, spb, t0, dt)` of R95. -/
def trace (bits : List Bool) (spb : Nat) (t0 dt : Ts) : Memory := ⟨traceFrom spb t0 dt 0 bits⟩

/-- The operands of `Frame(p, op, phy, reg, ta, data)` of R95. -/
structure FrameSpec where
  p : Nat
  op : BitVec 2
  phy : BitVec 5
  reg : BitVec 5
  ta : BitVec 2
  data : BitVec 16
  deriving DecidableEq, Repr

/-- `Frame(p, op, phy, reg, ta, data)` of R95: p ones, then the 32 body bits. -/
def FrameSpec.bits (f : FrameSpec) : List Bool :=
  List.replicate f.p true ++ bodyBits f.op f.phy f.reg f.ta f.data

/-! ## Host programs (R94) -/

/-- DECODEALL's loop after START, for at most `n` ticks: PULL, that is NOP (0x00) until a frame waits
and then POP (0x80), until `status` is terminal. -/
def pullAll : Nat → State → State
  | 0, s => s
  | n + 1, s =>
    if s.regs.status.terminal then s
    else pullAll n (hostTick (if s.regs.frValid then 0x80#8 else 0x00#8) s)

/-- DECODEALL on the capture `m` from reset: START 1, r (0x61 + 2r), then PULL for at most `n` ticks. -/
def decodeSession (resync : Bool) (n : Nat) (m : Memory) : State :=
  pullAll n (hostTick (if resync then 0x63#8 else 0x61#8) { State.reset with mem := m })

/-! ## The output line (R92), outside the block -/

/-- The low `n` hex digits of a number. -/
def hexDigits (digit : Nat → Char) : Nat → Nat → List Char
  | 0, _ => []
  | n + 1, v => hexDigits digit n (v / 16) ++ [digit (v % 16)]

/-- The letter of R84: `w` for the operation value 1 alone. -/
def Frame.letter (f : Frame) : Char := if f.op = 1 then 'w' else 'r'

/-- R92. The text of the timestamp and the case of the hex digits are not in the source (U16): they are
arguments. -/
def Frame.line (stamp : List Char) (digit : Nat → Char) (f : Frame) : List Char :=
  stamp ++ [' ', f.letter, ' ', '0', 'x'] ++ hexDigits digit 2 f.phy.toNat ++ [' ', '0', 'x']
    ++ hexDigits digit 2 f.reg.toNat ++ [' ', '0', 'x'] ++ hexDigits digit 4 f.data.toNat

/-! ## The big-step decoder (R149) -/

/-- All logical bits the records from the cursor on yield (R110). -/
def yieldedBits (phase : Bool) : Option Bool → List Sample → List LogicalBit
  | _, [] => []
  | prev, x :: xs =>
    if yieldsAfter phase prev x then ⟨x.dat, x.ts⟩ :: yieldedBits phase (some x.clk) xs
    else yieldedBits phase (some x.clk) xs

/-- How step 1's search ends. -/
inductive StartSearch where
  /-- EndOfStream: the capture ends in a preamble. -/
  | clean
  /-- A 0-bit after fewer than 16 ones, in abort mode. -/
  | short
  /-- The start 0-bit, its timestamp and the bits after it. -/
  | found (ts : Ts) (rest : List LogicalBit)
  deriving DecidableEq, Repr

/-- R149, step 1. -/
def searchStart (resync : Bool) : Nat → List LogicalBit → StartSearch
  | _, [] => .clean
  | ones, x :: xs =>
    if x.value then searchStart resync (min (ones + 1) 16) xs
    else if Config.preambleMin ≤ ones then .found x.ts xs
    else if resync then searchStart resync 0 xs
    else .short

/-- R149, `ReadInt(n)` on the bits to come. -/
def readInt (n : Nat) (xs : List LogicalBit) : BitVec n :=
  packMsbFirst n ((xs.take n).map (·.value))

/-- R149, `DecodeAll`, on the logical bits of the capture; each round of the loop uses up at least one
bit, so a `fuel` of one more than their number is enough. -/
def decodeAll (resync : Bool) : Nat → List LogicalBit → List Frame × Status
  | 0, _ => ([], .decode)
  | fuel + 1, xs =>
    match searchStart resync 0 xs with
    | .clean => ([], .doneClean)
    | .short => ([], .errPreamble)
    | .found _ [] => ([], .doneTrunc)
    | .found t (x :: rest) =>
      if !x.value then
        if resync then decodeAll resync fuel rest else ([], .errStart)
      else if rest.length < 30 then ([], .doneTrunc)
      else
        let f : Frame :=
          ⟨some t, readInt 2 rest, readInt 5 (rest.drop 2), readInt 5 (rest.drop 7),
            readInt 16 (rest.drop 14)⟩
        let r := decodeAll resync fuel (rest.drop 30)
        (f :: r.1, r.2)

end Sys2Proof.Machine
end

