-- ==== Sys2Proof/Safety.lean ====
section
/-! DEFINITION. The safety vocabulary of R246 and R272, and the invariants of R43. -/

namespace Sys2Proof.Machine

/-- R246: "a terminal ST_ERR_PREAMBLE or ST_ERR_START as a *fault* of the session". -/
def State.sessionFault (s : State) : Bool :=
  s.regs.status == .errPreamble || s.regs.status == .errStart

/-- R246: ST_ERR_MODE, a fault at construction. -/
def State.constructionFault (s : State) : Bool := s.regs.status == .errMode

/-- R246: a clean end of the capture. -/
def State.endedClean (s : State) : Bool := s.regs.status == .doneClean

/-- R246: a truncated end, told apart from a clean one (U1). -/
def State.endedTruncated (s : State) : Bool := s.regs.status == .doneTrunc

/-- R246: the refusal mark. -/
def State.refusalMark (s : State) : Bool := s.regs.cmdErr

/-- R246: the violation mark of resynchronise mode. -/
def State.violationMark (s : State) : Bool := s.regs.violSeen

/-- R272: a decode session has ended when `status` is terminal. -/
def State.finalStatus (s : State) : Bool := s.regs.status.terminal

/-- R145, U17: a frame waits and no sample is examined. -/
def State.stalled (s : State) : Bool := s.regs.status == .decode && s.regs.frValid

/-- No mark of R246 so far, and no truncated end, which U1 says to treat as not-clean. -/
def State.cleanSession (s : State) : Bool :=
  !s.sessionFault && !s.constructionFault && !s.endedTruncated && !s.refusalMark && !s.violationMark

/-- The invariants of R43 (a) to (g) with the two facts on absent timestamps (R29, R31, D24), R30's
"in fields F_ST1 to F_DATA it still reads 16" and R6's bound on N. -/
structure State.Inv (s : State) : Prop where
  /-- R6 -/
  memWf : s.mem.wf = true
  /-- R43 (a) -/
  posLe : s.regs.pos ≤ s.mem.size
  /-- R43 (b), R23 -/
  prevClk : ∀ x, 0 < s.regs.pos → s.mem.read (s.regs.pos - 1) = some x → s.regs.prevClk = x.clk
  /-- R43 (c) -/
  needLe : s.regs.need.toNat ≤ 16
  /-- R43 (c) -/
  onesLe : s.regs.ones.toNat ≤ 16
  /-- R43 (c) -/
  rawCntLe : s.regs.rawCnt.toNat ≤ 16
  /-- R43 (d) -/
  waiting : s.regs.frValid = true →
    s.regs.status = .decode ∧ s.regs.field = .pre ∧ s.regs.ones = 0 ∧ s.regs.need = 0 ∧ s.regs.shreg = 0
  /-- R43 (e) -/
  rawBusy : s.regs.status = .raw →
    1 ≤ s.regs.need.toNat ∧ s.regs.need.toNat ≤ s.regs.rawCnt.toNat ∧ s.regs.rawStatus = .none
  /-- R43 (f) -/
  decoding : s.regs.status = .decode → s.regs.phase = false ∧ s.regs.broadcom = true
  /-- R43 (g), the uncounted fields -/
  uncounted : (s.regs.status = .decode ∨ s.regs.status.terminal = true) →
    (s.regs.field = .pre ∨ s.regs.field = .st1) → s.regs.need = 0
  /-- R43 (g), the counted fields -/
  counted : s.regs.status = .decode → s.regs.field ≠ .pre → s.regs.field ≠ .st1 →
    1 ≤ s.regs.need.toNat ∧ s.regs.need.toNat ≤ s.regs.field.width.toNat
  /-- R29: `first_ts` holds a value exactly while `first_ts_valid` is 1 -/
  firstTs : s.regs.firstTs.isSome = s.regs.firstTsValid
  /-- R172: a frame that waits has its timestamp -/
  waitingTs : s.regs.frValid = true → s.regs.frTs.isSome = true
  /-- R30, R172: past F_PRE the preamble count reads 16 and the timestamp is latched -/
  pastPreamble : s.regs.status = .decode → s.regs.field ≠ .pre →
    s.regs.ones = 16 ∧ s.regs.frTs.isSome = true

end Sys2Proof.Machine
end

