-- ==== Sys2Proof/Certificates/Slice0/Obligations.lean ====
section
/-! DEFINITION. The statements for the provers. Each docstring names the rule of spec/ it formalises. -/

open Sys2Proof Sys2Proof.Machine

/-! ## The words the statements use -/

/-- The next tick examines `x`: R111, in ST_RAW or unstalled ST_DECODE with `x` = `S[pos]`. -/
def Sys2Proof.Claims.Examines (s : State) (x : Sample) : Prop :=
  (s.regs.status = .raw ∨ (s.regs.status = .decode ∧ s.regs.frValid = false))
    ∧ s.mem.read s.regs.pos = some x

/-- `x` yields at the cursor, by R110 in its form on registers. -/
def Sys2Proof.Claims.Yields (s : State) (x : Sample) : Prop :=
  x.clk = s.regs.phase ∧ (s.regs.pos = 0 ∨ s.regs.prevClk ≠ s.regs.phase)

/-- The next tick recovers a bit from `x` in the field `f` of a decode (R142). -/
def Sys2Proof.Claims.BitIn (f : FrameField) (s : State) (x : Sample) : Prop :=
  s.regs.status = .decode ∧ s.regs.frValid = false ∧ s.regs.field = f
    ∧ s.mem.read s.regs.pos = some x ∧ Claims.Yields s x

/-- The state after a tick that examined the yielding `x` and left the registers `r` but for `pos` and
`prev_clk`: all of the state but `regs`, `bitOut`, `popOut` and `bitLog` is as before. That the recorder
`bitLog` gains what `bit_out` shows is the model's choice (log 9). -/
def Sys2Proof.Claims.afterBit (s : State) (x : Sample) (r : Regs) : State :=
  { s with
    regs := { r with pos := s.regs.pos + 1, prevClk := x.clk }
    bitOut := some ⟨x.dat, x.ts⟩
    popOut := none
    bitLog := s.bitLog ++ [⟨x.dat, x.ts⟩] }

/-- The state after a tick that yielded no bit, popped no frame and left the registers `r`. -/
def Sys2Proof.Claims.afterQuiet (s : State) (r : Regs) : State :=
  { s with regs := r, bitOut := none, popOut := none }

/-- R143's `(shreg << 1 | b) mod 2^16`, on numbers. -/
def Sys2Proof.Claims.shifted (v : BitVec 16) (b : Bool) : BitVec 16 :=
  BitVec.ofNat 16 (2 * v.toNat + b.toNat)

/-- R82: the value of a list of bits, first bit most significant. -/
def Sys2Proof.Claims.value (bs : List LogicalBit) : Nat :=
  bs.foldl (fun n b => 2 * n + b.value.toNat) 0

/-- The block waits for a start 0-bit with its preamble complete (R172) and no frame waiting. -/
def Sys2Proof.Claims.FrameReady (s : State) : Prop :=
  s.regs.status = .decode ∧ s.regs.frValid = false ∧ s.regs.field = .pre ∧ 16 ≤ s.regs.ones.toNat

/-- The next 32 logical bits at the cursor are `bs`, `k` records hold them, and they are the body with
these fields (R80, R116). -/
def Sys2Proof.Claims.BodyAhead (s : State) (bs : List LogicalBit) (k : Nat) (op : BitVec 2)
    (phy reg : BitVec 5) (ta : BitVec 2) (data : BitVec 16) : Prop :=
  s.readBits 32 = some (bs, k) ∧ bs.map (·.value) = bodyBits op phy reg ta data

/-- The state after the frame (R172, R176 to R181): the frame registers, `fr_valid` and the position
written, the registers of the search cleared, everything else as before. -/
def Sys2Proof.Claims.frameDone (s : State) (bs : List LogicalBit) (k : Nat) (op : BitVec 2)
    (phy reg : BitVec 5) (data : BitVec 16) : State :=
  { s with
    regs :=
      { s.regs with
        pos := s.regs.pos + k, prevClk := s.regs.phase, frTs := bs.head?.map (·.ts), frOp := op,
        frPhy := phy, frReg := reg, frData := data, frValid := true, field := .pre, need := 0,
        shreg := 0, ones := 0 }
    bitOut := bs.getLast?
    popOut := none
    bitLog := s.bitLog ++ bs }

/-- R202's table: which well-formed command is accepted in which status. NOP always is; the frame rows
are no commands. -/
def Sys2Proof.Claims.accepted (i : Instr) (r : Regs) : Prop :=
  match i with
  | .nop => True
  | .setph _ => r.status = .idle
  | .rdbits c => r.status = .idle ∧ c.toNat ≤ 16
  | .rdbits16 => r.status = .idle
  | .start _ _ => r.status = .idle ∧ r.phase = false
  | .pop => r.status = .decode ∧ r.frValid = true
  | .frameOp0 _ _ _ _ => True
  | .frameOp1 _ _ _ _ => True
  | .frameOp2 _ _ _ _ => True
  | .frameOp3 _ _ _ _ => True

/-- The commands: every instruction but the frame rows. -/
def Sys2Proof.Claims.isCommand (i : Instr) : Prop :=
  match i with
  | .frameOp0 _ _ _ _ => False
  | .frameOp1 _ _ _ _ => False
  | .frameOp2 _ _ _ _ => False
  | .frameOp3 _ _ _ _ => False
  | _ => True

/-- The timestamps of the start 0-bits of back-to-back frames in a capture of R95, `i` the number of the
first record. -/
def Sys2Proof.Claims.startTimes (spb : Nat) (t0 dt : Ts) : Nat → List FrameSpec → List Ts
  | _, [] => []
  | i, f :: fs =>
    (t0 + dt * BitVec.ofNat _ (i + 2 * spb * f.p))
      :: Claims.startTimes spb t0 dt (i + 2 * spb * (f.p + 32)) fs

/-- R91's list of refused command words, written on `opc` = bits 7:5 and `opd` = bits 4:0. -/
def Sys2Proof.Claims.refusedWord (w : CommandWord) : Prop :=
  let opc := w.toNat / 32
  let opd := w.toNat % 32
  5 ≤ opc ∨ ((opc = 0 ∨ opc = 4) ∧ opd ≠ 0) ∨ (opc = 1 ∧ 2 ≤ opd) ∨ (opc = 2 ∧ 16 < opd)
    ∨ (opc = 3 ∧ 4 ≤ opd)

/-! ## Reset -/

/-- R41 and R260: the registers after a tick with `rst` = 1, whatever the state and the command word, with
no outputs. That the recorders `bitLog` and `popLog` are emptied is the model's choice (log 9). -/
def Obligations.ResetTickGivesResetState : Prop :=
  ∀ (s : State) (w : CommandWord) (rest : List HostInput), s.inbox = .reset w none :: rest →
    step s = .next
      { regs :=
          { pos := 0, phase := false, prevClk := false, status := .idle, field := .pre, need := 0,
            shreg := 0, rawCnt := 0, rawStatus := .none, firstTs := none, firstTsValid := false,
            ones := 0, frTs := none, frOp := 0, frPhy := 0, frReg := 0, frData := 0, frValid := false,
            broadcom := false, resync := false, violSeen := false, violKind := .preambleShort,
            cmdErr := false }
        mem := s.mem, inbox := rest, bitOut := none, popOut := none, bitLog := [], popLog := [] }

/-- A reset tick under which the host loads a capture (R70, R262) begins a session on it; a capture R6
excludes is refused. That the load rides in the reset tick is the model's choice (log 7), and so is
the refusal (log 2). -/
def Obligations.ResetWithCaptureStartsSession : Prop :=
  ∀ (s : State) (w : CommandWord) (m : Memory) (rest : List HostInput),
    s.inbox = .reset w (some m) :: rest →
      (m.records.length ≤ 2 ^ 32 - 1 →
        step s = .next { State.reset with mem := m, inbox := rest }) ∧
      (2 ^ 32 - 1 < m.records.length → step s = .refused .captureTooLong)

/-! ## Encodings -/

/-- 30_encoding.md: decoding the word of a well-formed instruction gives the instruction back, with
every operand. -/
def Obligations.DecodeEncodeRoundTrip : Prop :=
  ∀ i : Instr, i.wf = true → decode (encode i) = .ok i

/-- 30_encoding.md: each word has one meaning, and only well-formed instructions are decoded. -/
def Obligations.DecodedWordIsEncoding : Prop :=
  ∀ (w : Word) (i : Instr), decode w = .ok i → encode i = w ∧ i.wf = true

/-- R89: the words of the table decode to their commands, and every word the table does not list is
refused. -/
def Obligations.CommandWordTable : Prop :=
  decode (.command 0x00) = .ok .nop ∧
  (∀ p : Bool, decode (.command (0x20 + (BitVec.ofBool p).setWidth 8)) = .ok (.setph p)) ∧
  (∀ c : BitVec 5, c.toNat ≤ 15 → decode (.command (0x40 + c.setWidth 8)) = .ok (.rdbits c)) ∧
  decode (.command 0x50) = .ok .rdbits16 ∧
  (∀ b r : Bool,
    decode (.command (0x60 + (BitVec.ofBool b).setWidth 8 + 2 * (BitVec.ofBool r).setWidth 8))
      = .ok (.start b r)) ∧
  decode (.command 0x80) = .ok .pop ∧
  (∀ w : CommandWord, ¬ (w = 0x00 ∨ (0x20 ≤ w ∧ w ≤ 0x21) ∨ (0x40 ≤ w ∧ w ≤ 0x50) ∨
    (0x60 ≤ w ∧ w ≤ 0x63) ∨ w = 0x80) → ∃ e, decode (.command w) = .error e)

/-- Body words of 95_test_vectors.md (V1, L1b, V33, V31, V37) and the two kinds of word R85 and R86
exclude. -/
def Obligations.BodyWordsOfTheSpec : Prop :=
  decode (.body 0x60880010) = .ok (.frameOp2 1 2 0 0x0010) ∧
  decode (.body 0x508A1234) = .ok (.frameOp1 1 2 2 0x1234) ∧
  decode (.body 0x5FFEFFFF) = .ok (.frameOp1 31 31 2 0xFFFF) ∧
  decode (.body 0x4FFFFFFF) = .ok (.frameOp0 31 31 3 0xFFFF) ∧
  decode (.body 0x7FFCFFFF) = .ok (.frameOp3 31 31 0 0xFFFF) ∧
  decode (.body 0x3FFFFFFF) = .error .badStartCode ∧
  decode (.body 0x80000000) = .error .noStartBit

/-- R81: the 32 bits a frame row runs, in time order, are the bits of its body word from W[31] down to
W[0]. -/
def Obligations.BodyBitsAreTheWord : Prop :=
  ∀ (op : BitVec 2) (phy reg : BitVec 5) (ta : BitVec 2) (data : BitVec 16),
    bodyBits op phy reg ta data
      = (List.range 32).map fun k => (encodeBody op phy reg ta data).getLsbD (31 - k)

/-! ## The step -/

/-- A step runs the decoded instruction: the command word the host drives, the frame body at the
cursor, or NOP where the host drives nothing (the last two: log 5 and log 4). -/
def Obligations.StepRunsDecodedInstruction : Prop :=
  ∀ (s : State) (rest : List HostInput) (i : Instr),
    (∀ w : CommandWord, s.inbox = .command w :: rest → decode (.command w) = .ok i →
      step s = exec i { s with inbox := rest }) ∧
    (∀ (bs : List LogicalBit) (k : Nat), s.inbox = .body :: rest → s.readBits 32 = some (bs, k) →
      decode (.body (BitVec.ofNat 32 (Claims.value bs))) = .ok i →
      step s = exec i { s with inbox := rest }) ∧
    (s.inbox = [] → step s = exec .nop s)

/-- R200: a step with the word `cmd` on the command port, and a step with `rst` = 1 under which no capture
is loaded, are the tick of Machine/Reference.lean, which writes out the rule's lines. That the reset tick
also empties the recorders is the model's choice (log 9). -/
def Obligations.StepIsTick : Prop :=
  ∀ (s : State) (cmd : CommandWord) (rest : List HostInput),
    (s.inbox = .command cmd :: rest → step s = .next (tick false cmd { s with inbox := rest })) ∧
    (s.inbox = .reset cmd none :: rest → step s = .next (tick true cmd { s with inbox := rest }))

/-- R200, "The tick is total": every instruction completes in every state, and no step stops but a reset
that loads a capture R6 excludes. -/
def Obligations.ExecutionIsTotal : Prop :=
  (∀ (i : Instr) (s : State), ∃ t, exec i s = .next t) ∧
  (∀ s : State, (∃ t, step s = .next t) ∨
    ∃ w m rest, s.inbox = .reset w (some m) :: rest ∧ 2 ^ 32 - 1 < m.records.length)

/-- R203 with R91's list: a reserved or malformed word, in every status, sets `cmd_err` and the tick goes
on as for NOP. -/
def Obligations.MalformedWordRefused : Prop :=
  ∀ (s : State) (w : CommandWord) (rest : List HostInput), s.inbox = .command w :: rest →
    Claims.refusedWord w →
      step s = exec .nop { s with inbox := rest, regs := { s.regs with cmdErr := true } }

/-- R202: a command the table refuses sets `cmd_err` and the tick goes on as for NOP ("has no other
effect"); one it accepts leaves `cmd_err` alone. -/
def Obligations.CommandAcceptance : Prop :=
  ∀ (i : Instr) (s : State), Claims.isCommand i →
    (¬ Claims.accepted i s.regs →
      exec i s = exec .nop { s with regs := { s.regs with cmdErr := true } }) ∧
    (Claims.accepted i s.regs → ∃ t, exec i s = .next t ∧ t.regs.cmdErr = s.regs.cmdErr)

/-- The words `withFetchWord` places are what the next step fetches (the model's own operation, log 6):
a body, where the cursor lies within the capture. -/
def Obligations.PlacedBodyIsFetched : Prop :=
  ∀ (s : State) (w : BodyWord) (i : Instr), s.regs.pos ≤ s.mem.size → decode (.body w) = .ok i →
    step (s.withFetchWord 32 w.toNat) = exec i { s.withFetchWord 32 w.toNat with inbox := s.inbox }

/-! ## NOP and the one-sample step -/

/-- R201 with R111: where the status calls for no sample, NOP completes and changes no register. -/
def Obligations.NopWithoutSample : Prop :=
  ∀ s : State, s.regs.status ≠ .raw → ¬ (s.regs.status = .decode ∧ s.regs.frValid = false) →
    exec .nop s = .next (Claims.afterQuiet s s.regs)

/-- R113: an examined sample that does not yield moves `prev_clk` and `pos` and changes nothing else. -/
def Obligations.SkippedSampleMovesCursorOnly : Prop :=
  ∀ (s : State) (x : Sample), Claims.Examines s x → ¬ Claims.Yields s x →
    exec .nop s =
      .next (Claims.afterQuiet s { s.regs with pos := s.regs.pos + 1, prevClk := x.clk })

/-- R110 and R124 on the sample memory itself: after a tick with any command word, `bit_out` is the data
level and timestamp of `S[pos]` where the status examines it, its clock level is `phase` and it is the
first sample or `S[pos-1]` has the other level; in every other tick, a reset tick among them, it is
none. That the recorder gains what `bit_out` showed, and that a reset empties it, is the model's choice
(log 9). R43 (b) is the premise. -/
def Obligations.BitMonitor : Prop :=
  ∀ (s t : State) (w : CommandWord) (rest : List HostInput), s.Inv → step s = .next t →
    (s.inbox = .command w :: rest →
      (∀ b : LogicalBit, t.bitOut = some b ↔
        ∃ x, Claims.Examines s x ∧ b = ⟨x.dat, x.ts⟩ ∧ x.clk = s.regs.phase ∧
          (s.regs.pos = 0 ∨ ∃ y, s.mem.read (s.regs.pos - 1) = some y ∧ y.clk ≠ s.regs.phase)) ∧
      t.bitLog = s.bitLog ++ t.bitOut.toList) ∧
    (∀ c, s.inbox = .reset w c :: rest → t.bitOut = none ∧ t.bitLog = [])

/-! ## SETPH and RDBITS -/

/-- R115: SETPH p in ST_IDLE writes `phase` and nothing else. -/
def Obligations.SetphWritesPhase : Prop :=
  ∀ (s : State) (p : Bool), s.regs.status = .idle →
    exec (.setph p) s = .next (Claims.afterQuiet s { s.regs with phase := p })

/-- R117, the command tick of RDBITS c for 1 <= c <= 16, both rows of the table. -/
def Obligations.RdbitsBeginsRawRead : Prop :=
  ∀ (s : State) (i : Instr) (c : BitVec 5), s.regs.status = .idle →
    ((i = .rdbits c ∧ 1 ≤ c.toNat ∧ c.toNat ≤ 15) ∨ (i = .rdbits16 ∧ c = 16)) →
    exec i s = .next (Claims.afterQuiet s
      { s.regs with
        rawCnt := c, need := c, shreg := 0, firstTs := none, firstTsValid := false,
        rawStatus := .none, status := .raw })

/-- R119: RDBITS 0 completes in its command tick, wherever the cursor stands. -/
def Obligations.RdbitsZero : Prop :=
  ∀ s : State, s.regs.status = .idle →
    exec (.rdbits 0) s = .next (Claims.afterQuiet s
      { s.regs with
        rawCnt := 0, need := 0, shreg := 0, firstTs := none, firstTsValid := false, rawStatus := .ok })

/-- R117, AcceptBit in ST_RAW: the first bit loads `first_ts`, every bit is shifted in, and the last one
ends the read with RAW_OK.
The recorder `bitLog` is the model's choice (log 9). -/
def Obligations.RawBitAccepted : Prop :=
  ∀ (s : State) (x : Sample), s.regs.status = .raw → s.mem.read s.regs.pos = some x →
    Claims.Yields s x → 1 ≤ s.regs.need.toNat →
    exec .nop s = .next (Claims.afterBit s x
      { s.regs with
        firstTs := if s.regs.firstTsValid then s.regs.firstTs else some x.ts
        firstTsValid := true
        shreg := Claims.shifted s.regs.shreg x.dat
        need := BitVec.ofNat 5 (s.regs.need.toNat - 1)
        status := if s.regs.need.toNat = 1 then .idle else .raw
        rawStatus := if s.regs.need.toNat = 1 then .ok else s.regs.rawStatus })

/-- R120: the end of stream in a raw read. -/
def Obligations.RawEndOfStream : Prop :=
  ∀ s : State, s.regs.status = .raw → s.regs.pos = s.mem.size →
    exec .nop s = .next (Claims.afterQuiet s { s.regs with status := .idle, rawStatus := .eos })

/-- R116, R117: RDBITS c and NOPs recover what the read function recovers, if the capture holds c more
logical bits: their value in `shreg`, the first one's timestamp in `first_ts`, the cursor one past the
last record examined. -/
def Obligations.RawReadIsReadBits : Prop :=
  ∀ (s : State) (i : Instr) (c : BitVec 5) (bs : List LogicalBit) (k : Nat), s.regs.status = .idle →
    ((i = .rdbits c ∧ 1 ≤ c.toNat ∧ c.toNat ≤ 15) ∨ (i = .rdbits16 ∧ c = 16)) →
    s.readBits c.toNat = some (bs, k) →
    (nops k (s.after (exec i s))).regs =
        { s.regs with
          pos := s.regs.pos + k, prevClk := s.regs.phase, rawCnt := c, need := 0,
          shreg := BitVec.ofNat 16 (Claims.value bs), firstTs := bs.head?.map (·.ts),
          firstTsValid := true, rawStatus := .ok, status := .idle } ∧
      (nops k (s.after (exec i s))).bitLog = s.bitLog ++ bs

/-- R116, R120: if the capture runs out first, the read ends RAW_EOS with the cursor at N, the bits
recovered so far in `shreg` and `need` the number of bits missing (what is left behind is D10). -/
def Obligations.RawReadRunsOut : Prop :=
  ∀ (s : State) (i : Instr) (c : BitVec 5), s.regs.status = .idle → s.regs.pos ≤ s.mem.size →
    ((i = .rdbits c ∧ 1 ≤ c.toNat ∧ c.toNat ≤ 15) ∨ (i = .rdbits16 ∧ c = 16)) →
    s.readBits c.toNat = none →
    let bs := yieldedBits s.regs.phase s.regs.prevLevel s.ahead
    let t := nops (s.mem.size - s.regs.pos + 1) (s.after (exec i s))
    t.regs.status = .idle ∧ t.regs.rawStatus = .eos ∧ t.regs.pos = s.mem.size ∧ t.regs.rawCnt = c ∧
      t.regs.need.toNat + bs.length = c.toNat ∧ t.regs.shreg = BitVec.ofNat 16 (Claims.value bs) ∧
      t.regs.firstTs = bs.head?.map (·.ts) ∧ t.regs.firstTsValid = !bs.isEmpty ∧
      t.bitLog = s.bitLog ++ bs

/-- R118: after a read of c bits, c = 0 among them, the bit view is the list of the recovered bits, the
integer view their value, most significant first, and the bits of `shreg` above c-1 are 0. -/
def Obligations.RawViewsShowTheBits : Prop :=
  ∀ (s : State) (i : Instr) (c : BitVec 5) (bs : List LogicalBit) (k : Nat), s.regs.status = .idle →
    ((i = .rdbits c ∧ c.toNat ≤ 15) ∨ (i = .rdbits16 ∧ c = 16)) →
    s.readBits c.toNat = some (bs, k) →
    let t := nops k (s.after (exec i s))
    t.regs.rawBits = bs.map (·.value) ∧ t.regs.rawInt = Claims.value bs ∧
      t.regs.shreg.toNat < 2 ^ c.toNat

/-! ## START, POP and the deserializer -/

/-- R141, START 1, r accepted: decoding begins at the present cursor. -/
def Obligations.StartBeginsDecode : Prop :=
  ∀ (s : State) (r : Bool), s.regs.status = .idle → s.regs.phase = false →
    exec (.start true r) s = .next (Claims.afterQuiet s
      { s.regs with
        broadcom := true, resync := r, field := .pre, ones := 0, need := 0, shreg := 0,
        frValid := false, status := .decode })

/-- R141, R234, START 0, r accepted: UnsupportedMode at construction, no sample examined. -/
def Obligations.StartWithoutBroadcom : Prop :=
  ∀ (s : State) (r : Bool), s.regs.status = .idle → s.regs.phase = false →
    exec (.start false r) s = .next (Claims.afterQuiet s
      { s.regs with
        broadcom := false, resync := r, field := .pre, ones := 0, need := 0, shreg := 0,
        frValid := false, status := .errMode })

/-- R150: POP while a frame waits puts it on `pop_out` and clears `fr_valid`, and nothing else. The recorder
`popLog` is the model's choice (log 9). -/
def Obligations.PopHandsOverFrame : Prop :=
  ∀ s : State, s.regs.status = .decode → s.regs.frValid = true →
    exec .pop s = .next
      { s with
        regs := { s.regs with frValid := false }
        bitOut := none
        popOut := some ⟨s.regs.frTs, s.regs.frOp, s.regs.frPhy, s.regs.frReg, s.regs.frData⟩
        popLog :=
          s.popLog ++ [⟨s.regs.frTs, s.regs.frOp, s.regs.frPhy, s.regs.frReg, s.regs.frData⟩] }

/-- R143, a bit of a counted field that is not its last.
The recorder `bitLog` is the model's choice (log 9). -/
def Obligations.CountedBitShiftsIn : Prop :=
  ∀ (s : State) (x : Sample) (f : FrameField), f ≠ .pre → f ≠ .st1 → Claims.BitIn f s x →
    2 ≤ s.regs.need.toNat →
    exec .nop s = .next (Claims.afterBit s x
      { s.regs with
        shreg := Claims.shifted s.regs.shreg x.dat
        need := BitVec.ofNat 5 (s.regs.need.toNat - 1) })

/-- R144, the transition table: what the last bit of each counted field latches and which field follows,
and the two transitions out of F_PRE and F_ST1.
The recorder `bitLog` is the model's choice (log 9). -/
def Obligations.FieldTransitionTable : Prop :=
  ∀ (s : State) (x : Sample),
    let v := Claims.shifted s.regs.shreg x.dat
    (Claims.BitIn .op s x → s.regs.need = 1 →
      exec .nop s = .next (Claims.afterBit s x
        { s.regs with frOp := v.extractLsb' 0 2, field := .phy, need := 5, shreg := 0 })) ∧
    (Claims.BitIn .phy s x → s.regs.need = 1 →
      exec .nop s = .next (Claims.afterBit s x
        { s.regs with frPhy := v.extractLsb' 0 5, field := .reg, need := 5, shreg := 0 })) ∧
    (Claims.BitIn .reg s x → s.regs.need = 1 →
      exec .nop s = .next (Claims.afterBit s x
        { s.regs with frReg := v.extractLsb' 0 5, field := .ta, need := 2, shreg := 0 })) ∧
    (Claims.BitIn .ta s x → s.regs.need = 1 →
      exec .nop s = .next (Claims.afterBit s x { s.regs with field := .data, need := 16, shreg := 0 })) ∧
    (Claims.BitIn .data s x → s.regs.need = 1 →
      exec .nop s = .next (Claims.afterBit s x
        { s.regs with
          frData := v, field := .pre, need := 0, shreg := 0, frValid := true, ones := 0 })) ∧
    (Claims.BitIn .pre s x → x.dat = false → 16 ≤ s.regs.ones.toNat →
      exec .nop s = .next (Claims.afterBit s x { s.regs with frTs := some x.ts, field := .st1 })) ∧
    (Claims.BitIn .st1 s x → x.dat = true →
      exec .nop s = .next (Claims.afterBit s x { s.regs with field := .op, need := 2, shreg := 0 }))

/-- R145: while a frame waits no sample is examined and no register changes, however many NOPs the host
lets pass. -/
def Obligations.StallHoldsEverything : Prop :=
  ∀ (s : State) (n : Nat), s.regs.status = .decode → s.regs.frValid = true →
    nops (n + 1) s = Claims.afterQuiet s s.regs

/-- R146: the end of stream while decoding: clean in F_PRE, truncated from F_ST1 on, no other register
changed. -/
def Obligations.EndOfStreamWhileDecoding : Prop :=
  ∀ s : State, s.regs.status = .decode → s.regs.frValid = false → s.regs.pos = s.mem.size →
    (s.regs.field = .pre →
      exec .nop s = .next (Claims.afterQuiet s { s.regs with status := .doneClean })) ∧
    (s.regs.field ≠ .pre →
      exec .nop s = .next (Claims.afterQuiet s { s.regs with status := .doneTrunc }))

/-- R147: in a terminal status a step examines no sample and changes no register, except that a command
other than NOP sets `cmd_err`; only a reset leaves the status. That a step without an input (log 4) and
one with the input `body` (log 5) are NOP ticks here is the model's choice. -/
def Obligations.TerminalStatusAbsorbs : Prop :=
  ∀ (s t : State), s.regs.status.terminal = true → step s = .next t →
    (∃ w c rest, s.inbox = .reset w c :: rest) ∨
    ((∃ w rest, s.inbox = .command w :: rest ∧ w ≠ 0x00 ∧
        t = Claims.afterQuiet { s with inbox := rest } { s.regs with cmdErr := true }) ∨
      ((∀ w rest, s.inbox = .command w :: rest → w = 0x00) ∧
        t = Claims.afterQuiet { s with inbox := s.inbox.tail } s.regs))

/-! ## The field decoder -/

/-- R171: a 1-bit in F_PRE counts, saturating at 16.
The recorder `bitLog` is the model's choice (log 9). -/
def Obligations.PreambleOneBitCounts : Prop :=
  ∀ (s : State) (x : Sample), Claims.BitIn .pre s x → x.dat = true →
    exec .nop s = .next (Claims.afterBit s x
      { s.regs with ones := BitVec.ofNat 5 (min (s.regs.ones.toNat + 1) 16) })

/-- R172: the 0-bit after 16 ones is the start-of-frame bit, and its timestamp the frame's.
The recorder `bitLog` is the model's choice (log 9). -/
def Obligations.StartBitLatchesTimestamp : Prop :=
  ∀ (s : State) (x : Sample), Claims.BitIn .pre s x → x.dat = false → 16 ≤ s.regs.ones.toNat →
    exec .nop s = .next (Claims.afterBit s x { s.regs with frTs := some x.ts, field := .st1 })

/-- R173, R175 and R183: what a protocol violation does, of each kind and in each mode.
The recorder `bitLog` is the model's choice (log 9). -/
def Obligations.ProtocolViolations : Prop :=
  ∀ (s : State) (x : Sample), x.dat = false →
    (Claims.BitIn .pre s x → s.regs.ones.toNat < 16 → s.regs.resync = false →
      exec .nop s = .next (Claims.afterBit s x { s.regs with status := .errPreamble })) ∧
    (Claims.BitIn .st1 s x → s.regs.resync = false →
      exec .nop s = .next (Claims.afterBit s x { s.regs with status := .errStart })) ∧
    (Claims.BitIn .pre s x → s.regs.ones.toNat < 16 → s.regs.resync = true →
      exec .nop s = .next (Claims.afterBit s x
        { s.regs with violSeen := true, violKind := .preambleShort, field := .pre, ones := 0 })) ∧
    (Claims.BitIn .st1 s x → s.regs.resync = true →
      exec .nop s = .next (Claims.afterBit s x
        { s.regs with violSeen := true, violKind := .startMismatch, field := .pre, ones := 0 }))

/-- R182: `fr_wr`, on the frame ports, is 1 for the operation value 1 alone. -/
def Obligations.WriteClassification : Prop :=
  ∀ s : State, (s.regs.frWr = true ↔ s.regs.frOp = 1) ∧
    ∀ f : FramePorts, s.ports.frame = some f → (f.frWr = true ↔ f.frOp = 1) ∧ f.frOp = s.regs.frOp

/-! ## The frame rows -/

/-- R80, R81, R172, R174, R176 to R181, R84: a frame body that the block meets after its preamble is
decoded whole: every field is latched, the timestamp is the start 0-bit's, the turnaround leaves no
trace but on the bit monitor, and the frame waits. All four rows. That a frame row is one step over the
body's bits is the model's choice (log 5). -/
def Obligations.FrameRowsDecode : Prop :=
  ∀ (s : State) (phy reg : BitVec 5) (ta : BitVec 2) (data : BitVec 16) (bs : List LogicalBit) (k : Nat),
    Claims.FrameReady s →
    (Claims.BodyAhead s bs k 0 phy reg ta data →
      exec (.frameOp0 phy reg ta data) s = .next (Claims.frameDone s bs k 0 phy reg data)) ∧
    (Claims.BodyAhead s bs k 1 phy reg ta data →
      exec (.frameOp1 phy reg ta data) s = .next (Claims.frameDone s bs k 1 phy reg data)) ∧
    (Claims.BodyAhead s bs k 2 phy reg ta data →
      exec (.frameOp2 phy reg ta data) s = .next (Claims.frameDone s bs k 2 phy reg data)) ∧
    (Claims.BodyAhead s bs k 3 phy reg ta data →
      exec (.frameOp3 phy reg ta data) s = .next (Claims.frameDone s bs k 3 phy reg data))

/-- A frame row is its NOP ticks (R111, R200), which validates the model's choice of one step for a frame
row (log 5): in any state whose next 32 logical bits are the body, the
row gives what one NOP for each of the `k` records gives, in every register, output and recorder. -/
def Obligations.FrameRowIsNopTicks : Prop :=
  ∀ (s : State) (op : BitVec 2) (phy reg : BitVec 5) (ta : BitVec 2) (data : BitVec 16)
    (bs : List LogicalBit) (k : Nat), Claims.BodyAhead s bs k op phy reg ta data →
    exec (frameOf op phy reg ta data) s = .next (nops k s)

/-- Where the status examines no sample (R111; ST_IDLE, a waiting frame by R145, a terminal status by
R147) `exec` of a frame row changes no register, on any capture. That the row has this meaning there, a
frame that passes unseen, is the model's choice (log 5). -/
def Obligations.FramePassesUnexamined : Prop :=
  ∀ (s : State) (op : BitVec 2) (phy reg : BitVec 5) (ta : BitVec 2) (data : BitVec 16),
    s.regs.status ≠ .raw → ¬ (s.regs.status = .decode ∧ s.regs.frValid = false) →
    exec (frameOf op phy reg ta data) s = .next (Claims.afterQuiet s s.regs)

/-- R83, R150, R181: a decoded frame and a POP deliver the record, and the search for the next frame
begins with `ones` = 0. The frame row as one step is the model's choice (log 5), and so is the recorder
`popLog` (log 9). -/
def Obligations.FrameThenPopDelivers : Prop :=
  ∀ (s : State) (op : BitVec 2) (phy reg : BitVec 5) (ta : BitVec 2) (data : BitVec 16)
    (b : LogicalBit) (bs : List LogicalBit) (k : Nat),
    Claims.FrameReady s → Claims.BodyAhead s (b :: bs) k op phy reg ta data →
    let t := runAll [frameOf op phy reg ta data, .pop] s
    t.popOut = some ⟨some b.ts, op, phy, reg, data⟩ ∧
      t.popLog = s.popLog ++ [⟨some b.ts, op, phy, reg, data⟩] ∧
      t.regs.frValid = false ∧ t.regs.ones = 0 ∧ t.regs.field = .pre ∧ t.regs.status = .decode

/-! ## Rules of the whole machine -/

/-- R43 (a) to (g) with R6, R29, R30 and R31's facts: every step keeps the invariants. -/
def Obligations.StepKeepsInvariants : Prop :=
  ∀ s t : State, s.Inv → step s = .next t → t.Inv

/-- R43: the invariants hold after reset. -/
def Obligations.ResetMeetsInvariants : Prop := State.reset.Inv

/-- R21, R43 (a): no step but a reset decreases the cursor, and one command moves it by at most one. -/
def Obligations.CursorNeverDecreases : Prop :=
  ∀ s t : State, step s = .next t → (∀ w c rest, s.inbox ≠ .reset w c :: rest) →
    s.regs.pos ≤ t.regs.pos ∧
      (∀ w rest, s.inbox = .command w :: rest → t.regs.pos ≤ s.regs.pos + 1)

/-- R62, R67: the block never writes the sample memory; only a reset that loads a capture changes it. -/
def Obligations.MemoryFixedInSession : Prop :=
  (∀ (i : Instr) (s t : State), exec i s = .next t → t.mem = s.mem ∧ t.inbox = s.inbox) ∧
  (∀ s t : State, step s = .next t → t.mem = s.mem ∨ ∃ w rest, s.inbox = .reset w (some t.mem) :: rest)

/-- R246: none of the marks is cleared by any later step other than reset. -/
def Obligations.MarksAreSticky : Prop :=
  ∀ s t : State, step s = .next t → (∀ w c rest, s.inbox ≠ .reset w c :: rest) →
    (s.regs.cmdErr = true → t.regs.cmdErr = true) ∧
    (s.regs.violSeen = true → t.regs.violSeen = true) ∧
    (s.regs.status.terminal = true → t.regs.status = s.regs.status)

/-- R152 for a host that sends NOPs and POPs a frame at once: a tick that examines, under any command word,
moves the cursor by one or ends the activity; a raw read under NOPs ends within N - pos + 1 ticks; and a
decode ends within (N - pos) + K + 1 ticks, K the frames handed over. -/
def Obligations.ActivitiesEnd : Prop :=
  (∀ (s t : State) (w : CommandWord) (rest : List HostInput), s.inbox = .command w :: rest →
    s.regs.pos ≤ s.mem.size → s.regs.examining = true → step s = .next t →
    (s.regs.pos < s.mem.size ∧ t.regs.pos = s.regs.pos + 1) ∨
      (s.regs.pos = s.mem.size ∧ t.regs.pos = s.regs.pos ∧ t.regs.examining = false)) ∧
  (∀ s : State, s.regs.status = .raw →
    (nops (s.mem.size - s.regs.pos + 1) s).regs.status = .idle) ∧
  (∀ s : State, s.regs.status = .decode → s.regs.frValid = false →
    ∃ n, (pullAll n s).regs.status.terminal = true ∧
      n ≤ (s.mem.size - s.regs.pos) + ((pullAll n s).popLog.length - s.popLog.length) + 1)

/-- R149: the tick machine, PULLed until a terminal status, hands over the frames of `DecodeAll` and ends
in its status, from any state that begins the search for a frame. The `decodeAll` compared with is the
model's own rewriting of R149's function, on the list of the bits the capture yields and with fuel
(log 15), and the frames handed over are read from the recorder `popLog` (log 9). -/
def Obligations.PulledDecodeIsDecodeAll : Prop :=
  ∀ (s : State) (n : Nat), s.regs.status = .decode → s.regs.frValid = false → s.regs.field = .pre →
    s.regs.ones = 0 → 2 * (s.mem.size - s.regs.pos) + 1 ≤ n →
    let bits := yieldedBits s.regs.phase s.regs.prevLevel s.ahead
    let r := decodeAll s.regs.resync (bits.length + 1) bits
    (pullAll n s).popLog = s.popLog ++ r.1 ∧ (pullAll n s).regs.status = r.2

/-- The document's round trip (95_test_vectors.md T2, T3; R80, R82, R83, R95): a capture of back-to-back
frames, each with 16 ones or more, at any number of samples per half-cycle, decodes to exactly those
frames in order, each with the timestamp of its start 0-bit, and ends clean. `t0` and `dt` are arbitrary:
that the timestamps of a capture are taken modulo 2^64 is the model's choice (log 15). -/
def Obligations.CapturedFramesRoundTrip : Prop :=
  ∀ (fs : List FrameSpec) (spb : Nat) (t0 dt : Ts) (resync : Bool) (n : Nat),
    (∀ f ∈ fs, 16 ≤ f.p) → 1 ≤ spb →
    let m := trace (fs.flatMap FrameSpec.bits) spb t0 dt
    2 * m.size + 1 ≤ n →
    let t := decodeSession resync n m
    t.popLog =
        List.zipWith (fun f ts => (⟨some ts, f.op, f.phy, f.reg, f.data⟩ : Frame)) fs
          (Claims.startTimes spb t0 dt 0 fs) ∧
      t.regs.status = .doneClean ∧ t.regs.cmdErr = false ∧ t.regs.violSeen = false

/-- R121: a record inserted after one of the same clock level, with any timestamp and data, changes
nothing in what the capture yields, at either phase. -/
def Obligations.OversamplingInvariance : Prop :=
  ∀ (phase : Bool) (before after : List Sample) (x y : Sample), y.clk = x.clk →
    yieldedBits phase none (before ++ x :: y :: after) = yieldedBits phase none (before ++ x :: after)

/-- R112, R114: a decode depends on its capture through the yielded bits alone: two captures that yield
the same bits give the same frames and the same terminal status. -/
def Obligations.DecodeDependsOnYieldedBitsOnly : Prop :=
  ∀ (m m' : Memory) (resync : Bool) (n n' : Nat),
    yieldedBits false none m.records = yieldedBits false none m'.records →
    2 * m.size + 1 ≤ n → 2 * m'.size + 1 ≤ n' →
    (decodeSession resync n m).popLog = (decodeSession resync n' m').popLog ∧
      (decodeSession resync n m).regs.status = (decodeSession resync n' m').regs.status

/-! ## Ports -/

/-- R21, R40: under the invariants the AW-bit ports `pos` and `n_samples` show the cursor and N exactly. -/
def Obligations.CursorPortsAreExact : Prop :=
  ∀ s : State, s.Inv → s.ports.pos.toNat = s.regs.pos ∧ s.ports.sAddr.toNat = s.regs.pos ∧
    s.ports.nSamples.toNat = s.mem.size

/-- R29, R31, U9: the timestamp and frame ports hold a value exactly while their flags are 1, and a host
that takes them for one otherwise meets a fault. -/
def Obligations.AbsentValuesAreNotReadable : Prop :=
  ∀ s : State, s.Inv →
    (s.regs.firstTsValid = false → s.ports.firstTs = none ∧ s.readFirstTs = .error .firstTsAbsent) ∧
    (s.regs.firstTsValid = true → ∃ t, s.regs.firstTs = some t ∧ s.readFirstTs = .ok t) ∧
    (s.regs.frValid = false → s.ports.frame = none ∧ s.readFrame = .error .frameAbsent) ∧
    (s.regs.frValid = true → ∃ f, s.readFrame = .ok f ∧ f.frTs = s.regs.frTs ∧
      f.frTs.isSome = true ∧ f.frOp = s.regs.frOp ∧ f.frPhy = s.regs.frPhy ∧ f.frReg = s.regs.frReg ∧
      f.frData = s.regs.frData)

/-! ## The safety vocabulary -/

/-- R246 with U1: what a clean session is, in registers; and what makes a session unclean (a fault, a fault
at construction, a truncated end, the refusal mark or the violation mark) stays until a reset, a truncated
end without ever reading as a clean one. -/
def Obligations.UncleanSessionStaysUnclean : Prop :=
  (∀ s : State, s.cleanSession = true ↔
    s.regs.cmdErr = false ∧ s.regs.violSeen = false ∧ s.regs.status ≠ .doneTrunc ∧
      s.regs.status ≠ .errPreamble ∧ s.regs.status ≠ .errStart ∧ s.regs.status ≠ .errMode) ∧
  (∀ s t : State, step s = .next t → (∀ w c rest, s.inbox ≠ .reset w c :: rest) →
    (s.cleanSession = false → t.cleanSession = false) ∧
    (s.endedTruncated = true →
      t.endedTruncated = true ∧ t.endedClean = false ∧ t.cleanSession = false) ∧
    (s.endedClean = true → t.endedClean = true ∧ t.endedTruncated = false) ∧
    (s.sessionFault = true → t.sessionFault = true) ∧
    (s.constructionFault = true → t.constructionFault = true))
end

