-- ==== Sys2Proof/Laws/Operands.lean ====
section
/-! SUPPORT. Shifting bits in, most significant first, on numbers (R82, R143). -/

namespace Sys2Proof.Machine

/-- One bit more on the right: `2 * v + b` modulo the width. -/
theorem shiftLeft_or_bit {n : Nat} (v : BitVec n) (b : Bool) :
    (v <<< 1) ||| (BitVec.ofBool b).setWidth n = BitVec.ofNat n (2 * v.toNat + b.toNat) := by
  rcases Nat.eq_zero_or_pos n with rfl | hn
  · exact Subsingleton.elim _ _
  have h1 : (v <<< 1) ||| (BitVec.ofBool b).setWidth n = (v <<< 1) + (BitVec.ofBool b).setWidth n := by
    refine (BitVec.add_eq_or_of_and_eq_zero _ _ ?_).symm
    ext i hi
    cases i <;> simp
  rw [h1]
  apply BitVec.eq_of_toNat_eq
  have hb : b.toNat < 2 ^ n :=
    Nat.lt_of_lt_of_le (Nat.lt_succ_of_le (Bool.toNat_le b)) (by simpa using Nat.pow_le_pow_right (n := 2) (by decide) hn)
  simp only [BitVec.toNat_add, BitVec.toNat_shiftLeft, BitVec.toNat_setWidth, BitVec.toNat_ofBool,
    BitVec.toNat_ofNat, Nat.shiftLeft_eq, pow_one]
  rw [Nat.mod_eq_of_lt hb, Nat.mul_comm v.toNat 2, Nat.mod_add_mod]

theorem shiftIn_eq_ofNat (v : BitVec 16) (b : Bool) :
    shiftIn v b = BitVec.ofNat 16 (2 * v.toNat + b.toNat) := shiftLeft_or_bit v b

/-- Packing is the number the bits form, modulo the width. -/
theorem packMsbFirst_eq_ofNat (n : Nat) (bits : List Bool) :
    packMsbFirst n bits = BitVec.ofNat n (bits.foldl (fun v b => 2 * v + b.toNat) 0) := by
  suffices h : ∀ (v : BitVec n) (k : Nat), v = BitVec.ofNat n k →
      bits.foldl (fun (v : BitVec n) b => (v <<< 1) ||| (BitVec.ofBool b).setWidth n) v
        = BitVec.ofNat n (bits.foldl (fun v b => 2 * v + b.toNat) k) from h 0 0 rfl
  induction bits with
  | nil => intro v k h; exact h
  | cons b bs ih =>
    intro v k h
    refine ih _ _ ?_
    dsimp only
    rw [shiftLeft_or_bit, h]
    apply BitVec.eq_of_toNat_eq
    simp [Nat.add_mod, Nat.mul_mod]

/-- Shifting bits into `shreg` one by one is shifting their number in. -/
theorem foldl_shiftIn (bits : List Bool) (v : BitVec 16) :
    bits.foldl shiftIn v = BitVec.ofNat 16 (bits.foldl (fun n b => 2 * n + b.toNat) v.toNat) := by
  suffices h : ∀ (v : BitVec 16) (k : Nat), v = BitVec.ofNat 16 k →
      bits.foldl shiftIn v = BitVec.ofNat 16 (bits.foldl (fun n b => 2 * n + b.toNat) k) from
    h v v.toNat (by simp)
  induction bits with
  | nil => intro v k h; exact h
  | cons b bs ih =>
    intro v k h
    refine ih _ _ ?_
    dsimp only
    rw [shiftIn_eq_ofNat, h]
    apply BitVec.eq_of_toNat_eq
    simp [Nat.add_mod, Nat.mul_mod]

@[simp] theorem bitsMsbFirst_length {n : Nat} (v : BitVec n) : (bitsMsbFirst v).length = n := by
  simp [bitsMsbFirst]

@[simp] theorem bodyBits_length (op : BitVec 2) (phy reg : BitVec 5) (ta : BitVec 2)
    (data : BitVec 16) : (bodyBits op phy reg ta data).length = 32 := by
  simp [bodyBits]

end Sys2Proof.Machine
end

