-- ==== Sys2Proof/Laws/Encoding.lean ====
section
/-! SUPPORT. The fields of an encoded body word (R81), as a number and as bits. -/

namespace Sys2Proof

open Machine

theorem toNat_append_eq {m n : Nat} (x : BitVec m) (y : BitVec n) :
    (x ++ y).toNat = x.toNat * 2 ^ n + y.toNat := by
  rw [BitVec.toNat_append, Nat.shiftLeft_eq, Nat.mul_comm, Nat.two_pow_add_eq_or_of_lt y.isLt]

/-- R81: the body word as a number. -/
theorem encodeBody_toNat (op : BitVec 2) (phy reg : BitVec 5) (ta : BitVec 2) (data : BitVec 16) :
    (encodeBody op phy reg ta data).toNat =
      2 ^ 30 + op.toNat * 2 ^ 28 + phy.toNat * 2 ^ 23 + reg.toNat * 2 ^ 18 + ta.toNat * 2 ^ 16
        + data.toNat := by
  have h : (encodeBody op phy reg ta data).toNat = (0b01#2 ++ op ++ phy ++ reg ++ ta ++ data).toNat := rfl
  rw [h]
  simp only [toNat_append_eq]
  have h1 : (0b01#2).toNat = 1 := rfl
  omega

/-- The bits of two words side by side, in time order. -/
theorem bitsMsbFirst_append {m n : Nat} (x : BitVec m) (y : BitVec n) :
    bitsMsbFirst (x ++ y) = bitsMsbFirst x ++ bitsMsbFirst y := by
  apply List.ext_getElem
  · simp
  · intro k h1 h2
    simp only [bitsMsbFirst, List.getElem_map, List.getElem_range, List.getElem_append, List.length_map,
      List.length_range, BitVec.getMsbD_append]
    split <;> rename_i h
    · rw [dif_neg (by omega)]
    · rw [dif_pos (by omega)]

end Sys2Proof
end

