-- ==== Sys2Proof/Laws/State.lean ====
section
/-! SUPPORT. One lemma per field for each plain update of State and Regs, so that no proof unfolds a
record update. -/

namespace Sys2Proof.Machine

/-! `State.quiet` -/

@[simp] theorem State.quiet_regs (s : State) : (s.quiet).regs = s.regs := rfl
@[simp] theorem State.quiet_mem (s : State) : (s.quiet).mem = s.mem := rfl
@[simp] theorem State.quiet_inbox (s : State) : (s.quiet).inbox = s.inbox := rfl
@[simp] theorem State.quiet_bitOut (s : State) : (s.quiet).bitOut = none := rfl
@[simp] theorem State.quiet_popOut (s : State) : (s.quiet).popOut = none := rfl
@[simp] theorem State.quiet_bitLog (s : State) : (s.quiet).bitLog = s.bitLog := rfl
@[simp] theorem State.quiet_popLog (s : State) : (s.quiet).popLog = s.popLog := rfl

/-! `State.takeInput` -/

@[simp] theorem State.takeInput_regs (s : State) : (s.takeInput).regs = s.regs := rfl
@[simp] theorem State.takeInput_mem (s : State) : (s.takeInput).mem = s.mem := rfl
@[simp] theorem State.takeInput_inbox (s : State) : (s.takeInput).inbox = s.inbox.tail := rfl
@[simp] theorem State.takeInput_bitOut (s : State) : (s.takeInput).bitOut = s.bitOut := rfl
@[simp] theorem State.takeInput_popOut (s : State) : (s.takeInput).popOut = s.popOut := rfl
@[simp] theorem State.takeInput_bitLog (s : State) : (s.takeInput).bitLog = s.bitLog := rfl
@[simp] theorem State.takeInput_popLog (s : State) : (s.takeInput).popLog = s.popLog := rfl

/-! `State.withRegs` -/

@[simp] theorem State.withRegs_regs (r : Regs) (s : State) : (s.withRegs r).regs = r := rfl
@[simp] theorem State.withRegs_mem (r : Regs) (s : State) : (s.withRegs r).mem = s.mem := rfl
@[simp] theorem State.withRegs_inbox (r : Regs) (s : State) : (s.withRegs r).inbox = s.inbox := rfl
@[simp] theorem State.withRegs_bitOut (r : Regs) (s : State) : (s.withRegs r).bitOut = none := rfl
@[simp] theorem State.withRegs_popOut (r : Regs) (s : State) : (s.withRegs r).popOut = none := rfl
@[simp] theorem State.withRegs_bitLog (r : Regs) (s : State) : (s.withRegs r).bitLog = s.bitLog := rfl
@[simp] theorem State.withRegs_popLog (r : Regs) (s : State) : (s.withRegs r).popLog = s.popLog := rfl

/-! `State.emitBit` -/

@[simp] theorem State.emitBit_regs (x : Sample) (s : State) : (s.emitBit x).regs = s.regs := rfl
@[simp] theorem State.emitBit_mem (x : Sample) (s : State) : (s.emitBit x).mem = s.mem := rfl
@[simp] theorem State.emitBit_inbox (x : Sample) (s : State) : (s.emitBit x).inbox = s.inbox := rfl
@[simp] theorem State.emitBit_bitOut (x : Sample) (s : State) : (s.emitBit x).bitOut = some ⟨x.dat, x.ts⟩ := rfl
@[simp] theorem State.emitBit_popOut (x : Sample) (s : State) : (s.emitBit x).popOut = none := rfl
@[simp] theorem State.emitBit_bitLog (x : Sample) (s : State) : (s.emitBit x).bitLog = s.bitLog ++ [⟨x.dat, x.ts⟩] := rfl
@[simp] theorem State.emitBit_popLog (x : Sample) (s : State) : (s.emitBit x).popLog = s.popLog := rfl

/-! `State.popFrame` -/

@[simp] theorem State.popFrame_regs (s : State) : (s.popFrame).regs = s.regs.clearFrValid := rfl
@[simp] theorem State.popFrame_mem (s : State) : (s.popFrame).mem = s.mem := rfl
@[simp] theorem State.popFrame_inbox (s : State) : (s.popFrame).inbox = s.inbox := rfl
@[simp] theorem State.popFrame_bitOut (s : State) : (s.popFrame).bitOut = none := rfl
@[simp] theorem State.popFrame_popOut (s : State) : (s.popFrame).popOut = some s.regs.frame := rfl
@[simp] theorem State.popFrame_bitLog (s : State) : (s.popFrame).bitLog = s.bitLog := rfl
@[simp] theorem State.popFrame_popLog (s : State) : (s.popFrame).popLog = s.popLog ++ [s.regs.frame] := rfl

/-! `State.placeCommand` -/

@[simp] theorem State.placeCommand_regs (w : CommandWord) (s : State) : (s.placeCommand w).regs = s.regs := rfl
@[simp] theorem State.placeCommand_mem (w : CommandWord) (s : State) : (s.placeCommand w).mem = s.mem := rfl
@[simp] theorem State.placeCommand_inbox (w : CommandWord) (s : State) : (s.placeCommand w).inbox = .command w :: s.inbox := rfl
@[simp] theorem State.placeCommand_bitOut (w : CommandWord) (s : State) : (s.placeCommand w).bitOut = s.bitOut := rfl
@[simp] theorem State.placeCommand_popOut (w : CommandWord) (s : State) : (s.placeCommand w).popOut = s.popOut := rfl
@[simp] theorem State.placeCommand_bitLog (w : CommandWord) (s : State) : (s.placeCommand w).bitLog = s.bitLog := rfl
@[simp] theorem State.placeCommand_popLog (w : CommandWord) (s : State) : (s.placeCommand w).popLog = s.popLog := rfl

/-! `Regs.examine` -/

@[simp] theorem Regs.examine_pos (x : Sample) (r : Regs) : (r.examine x).pos = r.pos + 1 := rfl
@[simp] theorem Regs.examine_phase (x : Sample) (r : Regs) : (r.examine x).phase = r.phase := rfl
@[simp] theorem Regs.examine_prevClk (x : Sample) (r : Regs) : (r.examine x).prevClk = x.clk := rfl
@[simp] theorem Regs.examine_status (x : Sample) (r : Regs) : (r.examine x).status = r.status := rfl
@[simp] theorem Regs.examine_field (x : Sample) (r : Regs) : (r.examine x).field = r.field := rfl
@[simp] theorem Regs.examine_need (x : Sample) (r : Regs) : (r.examine x).need = r.need := rfl
@[simp] theorem Regs.examine_shreg (x : Sample) (r : Regs) : (r.examine x).shreg = r.shreg := rfl
@[simp] theorem Regs.examine_rawCnt (x : Sample) (r : Regs) : (r.examine x).rawCnt = r.rawCnt := rfl
@[simp] theorem Regs.examine_rawStatus (x : Sample) (r : Regs) : (r.examine x).rawStatus = r.rawStatus := rfl
@[simp] theorem Regs.examine_firstTs (x : Sample) (r : Regs) : (r.examine x).firstTs = r.firstTs := rfl
@[simp] theorem Regs.examine_firstTsValid (x : Sample) (r : Regs) : (r.examine x).firstTsValid = r.firstTsValid := rfl
@[simp] theorem Regs.examine_ones (x : Sample) (r : Regs) : (r.examine x).ones = r.ones := rfl
@[simp] theorem Regs.examine_frTs (x : Sample) (r : Regs) : (r.examine x).frTs = r.frTs := rfl
@[simp] theorem Regs.examine_frOp (x : Sample) (r : Regs) : (r.examine x).frOp = r.frOp := rfl
@[simp] theorem Regs.examine_frPhy (x : Sample) (r : Regs) : (r.examine x).frPhy = r.frPhy := rfl
@[simp] theorem Regs.examine_frReg (x : Sample) (r : Regs) : (r.examine x).frReg = r.frReg := rfl
@[simp] theorem Regs.examine_frData (x : Sample) (r : Regs) : (r.examine x).frData = r.frData := rfl
@[simp] theorem Regs.examine_frValid (x : Sample) (r : Regs) : (r.examine x).frValid = r.frValid := rfl
@[simp] theorem Regs.examine_broadcom (x : Sample) (r : Regs) : (r.examine x).broadcom = r.broadcom := rfl
@[simp] theorem Regs.examine_resync (x : Sample) (r : Regs) : (r.examine x).resync = r.resync := rfl
@[simp] theorem Regs.examine_violSeen (x : Sample) (r : Regs) : (r.examine x).violSeen = r.violSeen := rfl
@[simp] theorem Regs.examine_violKind (x : Sample) (r : Regs) : (r.examine x).violKind = r.violKind := rfl
@[simp] theorem Regs.examine_cmdErr (x : Sample) (r : Regs) : (r.examine x).cmdErr = r.cmdErr := rfl

/-! `Regs.markCmdErr` -/

@[simp] theorem Regs.markCmdErr_pos (r : Regs) : (r.markCmdErr).pos = r.pos := rfl
@[simp] theorem Regs.markCmdErr_phase (r : Regs) : (r.markCmdErr).phase = r.phase := rfl
@[simp] theorem Regs.markCmdErr_prevClk (r : Regs) : (r.markCmdErr).prevClk = r.prevClk := rfl
@[simp] theorem Regs.markCmdErr_status (r : Regs) : (r.markCmdErr).status = r.status := rfl
@[simp] theorem Regs.markCmdErr_field (r : Regs) : (r.markCmdErr).field = r.field := rfl
@[simp] theorem Regs.markCmdErr_need (r : Regs) : (r.markCmdErr).need = r.need := rfl
@[simp] theorem Regs.markCmdErr_shreg (r : Regs) : (r.markCmdErr).shreg = r.shreg := rfl
@[simp] theorem Regs.markCmdErr_rawCnt (r : Regs) : (r.markCmdErr).rawCnt = r.rawCnt := rfl
@[simp] theorem Regs.markCmdErr_rawStatus (r : Regs) : (r.markCmdErr).rawStatus = r.rawStatus := rfl
@[simp] theorem Regs.markCmdErr_firstTs (r : Regs) : (r.markCmdErr).firstTs = r.firstTs := rfl
@[simp] theorem Regs.markCmdErr_firstTsValid (r : Regs) : (r.markCmdErr).firstTsValid = r.firstTsValid := rfl
@[simp] theorem Regs.markCmdErr_ones (r : Regs) : (r.markCmdErr).ones = r.ones := rfl
@[simp] theorem Regs.markCmdErr_frTs (r : Regs) : (r.markCmdErr).frTs = r.frTs := rfl
@[simp] theorem Regs.markCmdErr_frOp (r : Regs) : (r.markCmdErr).frOp = r.frOp := rfl
@[simp] theorem Regs.markCmdErr_frPhy (r : Regs) : (r.markCmdErr).frPhy = r.frPhy := rfl
@[simp] theorem Regs.markCmdErr_frReg (r : Regs) : (r.markCmdErr).frReg = r.frReg := rfl
@[simp] theorem Regs.markCmdErr_frData (r : Regs) : (r.markCmdErr).frData = r.frData := rfl
@[simp] theorem Regs.markCmdErr_frValid (r : Regs) : (r.markCmdErr).frValid = r.frValid := rfl
@[simp] theorem Regs.markCmdErr_broadcom (r : Regs) : (r.markCmdErr).broadcom = r.broadcom := rfl
@[simp] theorem Regs.markCmdErr_resync (r : Regs) : (r.markCmdErr).resync = r.resync := rfl
@[simp] theorem Regs.markCmdErr_violSeen (r : Regs) : (r.markCmdErr).violSeen = r.violSeen := rfl
@[simp] theorem Regs.markCmdErr_violKind (r : Regs) : (r.markCmdErr).violKind = r.violKind := rfl
@[simp] theorem Regs.markCmdErr_cmdErr (r : Regs) : (r.markCmdErr).cmdErr = true := rfl

/-! `Regs.markViolation` -/

@[simp] theorem Regs.markViolation_pos (k : ViolKind) (r : Regs) : (r.markViolation k).pos = r.pos := rfl
@[simp] theorem Regs.markViolation_phase (k : ViolKind) (r : Regs) : (r.markViolation k).phase = r.phase := rfl
@[simp] theorem Regs.markViolation_prevClk (k : ViolKind) (r : Regs) : (r.markViolation k).prevClk = r.prevClk := rfl
@[simp] theorem Regs.markViolation_status (k : ViolKind) (r : Regs) : (r.markViolation k).status = r.status := rfl
@[simp] theorem Regs.markViolation_field (k : ViolKind) (r : Regs) : (r.markViolation k).field = r.field := rfl
@[simp] theorem Regs.markViolation_need (k : ViolKind) (r : Regs) : (r.markViolation k).need = r.need := rfl
@[simp] theorem Regs.markViolation_shreg (k : ViolKind) (r : Regs) : (r.markViolation k).shreg = r.shreg := rfl
@[simp] theorem Regs.markViolation_rawCnt (k : ViolKind) (r : Regs) : (r.markViolation k).rawCnt = r.rawCnt := rfl
@[simp] theorem Regs.markViolation_rawStatus (k : ViolKind) (r : Regs) : (r.markViolation k).rawStatus = r.rawStatus := rfl
@[simp] theorem Regs.markViolation_firstTs (k : ViolKind) (r : Regs) : (r.markViolation k).firstTs = r.firstTs := rfl
@[simp] theorem Regs.markViolation_firstTsValid (k : ViolKind) (r : Regs) : (r.markViolation k).firstTsValid = r.firstTsValid := rfl
@[simp] theorem Regs.markViolation_ones (k : ViolKind) (r : Regs) : (r.markViolation k).ones = r.ones := rfl
@[simp] theorem Regs.markViolation_frTs (k : ViolKind) (r : Regs) : (r.markViolation k).frTs = r.frTs := rfl
@[simp] theorem Regs.markViolation_frOp (k : ViolKind) (r : Regs) : (r.markViolation k).frOp = r.frOp := rfl
@[simp] theorem Regs.markViolation_frPhy (k : ViolKind) (r : Regs) : (r.markViolation k).frPhy = r.frPhy := rfl
@[simp] theorem Regs.markViolation_frReg (k : ViolKind) (r : Regs) : (r.markViolation k).frReg = r.frReg := rfl
@[simp] theorem Regs.markViolation_frData (k : ViolKind) (r : Regs) : (r.markViolation k).frData = r.frData := rfl
@[simp] theorem Regs.markViolation_frValid (k : ViolKind) (r : Regs) : (r.markViolation k).frValid = r.frValid := rfl
@[simp] theorem Regs.markViolation_broadcom (k : ViolKind) (r : Regs) : (r.markViolation k).broadcom = r.broadcom := rfl
@[simp] theorem Regs.markViolation_resync (k : ViolKind) (r : Regs) : (r.markViolation k).resync = r.resync := rfl
@[simp] theorem Regs.markViolation_violSeen (k : ViolKind) (r : Regs) : (r.markViolation k).violSeen = true := rfl
@[simp] theorem Regs.markViolation_violKind (k : ViolKind) (r : Regs) : (r.markViolation k).violKind = k := rfl
@[simp] theorem Regs.markViolation_cmdErr (k : ViolKind) (r : Regs) : (r.markViolation k).cmdErr = r.cmdErr := rfl

/-! `Regs.clearFirstTs` -/

@[simp] theorem Regs.clearFirstTs_pos (r : Regs) : (r.clearFirstTs).pos = r.pos := rfl
@[simp] theorem Regs.clearFirstTs_phase (r : Regs) : (r.clearFirstTs).phase = r.phase := rfl
@[simp] theorem Regs.clearFirstTs_prevClk (r : Regs) : (r.clearFirstTs).prevClk = r.prevClk := rfl
@[simp] theorem Regs.clearFirstTs_status (r : Regs) : (r.clearFirstTs).status = r.status := rfl
@[simp] theorem Regs.clearFirstTs_field (r : Regs) : (r.clearFirstTs).field = r.field := rfl
@[simp] theorem Regs.clearFirstTs_need (r : Regs) : (r.clearFirstTs).need = r.need := rfl
@[simp] theorem Regs.clearFirstTs_shreg (r : Regs) : (r.clearFirstTs).shreg = r.shreg := rfl
@[simp] theorem Regs.clearFirstTs_rawCnt (r : Regs) : (r.clearFirstTs).rawCnt = r.rawCnt := rfl
@[simp] theorem Regs.clearFirstTs_rawStatus (r : Regs) : (r.clearFirstTs).rawStatus = r.rawStatus := rfl
@[simp] theorem Regs.clearFirstTs_firstTs (r : Regs) : (r.clearFirstTs).firstTs = none := rfl
@[simp] theorem Regs.clearFirstTs_firstTsValid (r : Regs) : (r.clearFirstTs).firstTsValid = false := rfl
@[simp] theorem Regs.clearFirstTs_ones (r : Regs) : (r.clearFirstTs).ones = r.ones := rfl
@[simp] theorem Regs.clearFirstTs_frTs (r : Regs) : (r.clearFirstTs).frTs = r.frTs := rfl
@[simp] theorem Regs.clearFirstTs_frOp (r : Regs) : (r.clearFirstTs).frOp = r.frOp := rfl
@[simp] theorem Regs.clearFirstTs_frPhy (r : Regs) : (r.clearFirstTs).frPhy = r.frPhy := rfl
@[simp] theorem Regs.clearFirstTs_frReg (r : Regs) : (r.clearFirstTs).frReg = r.frReg := rfl
@[simp] theorem Regs.clearFirstTs_frData (r : Regs) : (r.clearFirstTs).frData = r.frData := rfl
@[simp] theorem Regs.clearFirstTs_frValid (r : Regs) : (r.clearFirstTs).frValid = r.frValid := rfl
@[simp] theorem Regs.clearFirstTs_broadcom (r : Regs) : (r.clearFirstTs).broadcom = r.broadcom := rfl
@[simp] theorem Regs.clearFirstTs_resync (r : Regs) : (r.clearFirstTs).resync = r.resync := rfl
@[simp] theorem Regs.clearFirstTs_violSeen (r : Regs) : (r.clearFirstTs).violSeen = r.violSeen := rfl
@[simp] theorem Regs.clearFirstTs_violKind (r : Regs) : (r.clearFirstTs).violKind = r.violKind := rfl
@[simp] theorem Regs.clearFirstTs_cmdErr (r : Regs) : (r.clearFirstTs).cmdErr = r.cmdErr := rfl

/-! `Regs.clearFrValid` -/

@[simp] theorem Regs.clearFrValid_pos (r : Regs) : (r.clearFrValid).pos = r.pos := rfl
@[simp] theorem Regs.clearFrValid_phase (r : Regs) : (r.clearFrValid).phase = r.phase := rfl
@[simp] theorem Regs.clearFrValid_prevClk (r : Regs) : (r.clearFrValid).prevClk = r.prevClk := rfl
@[simp] theorem Regs.clearFrValid_status (r : Regs) : (r.clearFrValid).status = r.status := rfl
@[simp] theorem Regs.clearFrValid_field (r : Regs) : (r.clearFrValid).field = r.field := rfl
@[simp] theorem Regs.clearFrValid_need (r : Regs) : (r.clearFrValid).need = r.need := rfl
@[simp] theorem Regs.clearFrValid_shreg (r : Regs) : (r.clearFrValid).shreg = r.shreg := rfl
@[simp] theorem Regs.clearFrValid_rawCnt (r : Regs) : (r.clearFrValid).rawCnt = r.rawCnt := rfl
@[simp] theorem Regs.clearFrValid_rawStatus (r : Regs) : (r.clearFrValid).rawStatus = r.rawStatus := rfl
@[simp] theorem Regs.clearFrValid_firstTs (r : Regs) : (r.clearFrValid).firstTs = r.firstTs := rfl
@[simp] theorem Regs.clearFrValid_firstTsValid (r : Regs) : (r.clearFrValid).firstTsValid = r.firstTsValid := rfl
@[simp] theorem Regs.clearFrValid_ones (r : Regs) : (r.clearFrValid).ones = r.ones := rfl
@[simp] theorem Regs.clearFrValid_frTs (r : Regs) : (r.clearFrValid).frTs = r.frTs := rfl
@[simp] theorem Regs.clearFrValid_frOp (r : Regs) : (r.clearFrValid).frOp = r.frOp := rfl
@[simp] theorem Regs.clearFrValid_frPhy (r : Regs) : (r.clearFrValid).frPhy = r.frPhy := rfl
@[simp] theorem Regs.clearFrValid_frReg (r : Regs) : (r.clearFrValid).frReg = r.frReg := rfl
@[simp] theorem Regs.clearFrValid_frData (r : Regs) : (r.clearFrValid).frData = r.frData := rfl
@[simp] theorem Regs.clearFrValid_frValid (r : Regs) : (r.clearFrValid).frValid = false := rfl
@[simp] theorem Regs.clearFrValid_broadcom (r : Regs) : (r.clearFrValid).broadcom = r.broadcom := rfl
@[simp] theorem Regs.clearFrValid_resync (r : Regs) : (r.clearFrValid).resync = r.resync := rfl
@[simp] theorem Regs.clearFrValid_violSeen (r : Regs) : (r.clearFrValid).violSeen = r.violSeen := rfl
@[simp] theorem Regs.clearFrValid_violKind (r : Regs) : (r.clearFrValid).violKind = r.violKind := rfl
@[simp] theorem Regs.clearFrValid_cmdErr (r : Regs) : (r.clearFrValid).cmdErr = r.cmdErr := rfl

/-! `Regs.enterField` -/

@[simp] theorem Regs.enterField_pos (f : FrameField) (r : Regs) : (r.enterField f).pos = r.pos := rfl
@[simp] theorem Regs.enterField_phase (f : FrameField) (r : Regs) : (r.enterField f).phase = r.phase := rfl
@[simp] theorem Regs.enterField_prevClk (f : FrameField) (r : Regs) : (r.enterField f).prevClk = r.prevClk := rfl
@[simp] theorem Regs.enterField_status (f : FrameField) (r : Regs) : (r.enterField f).status = r.status := rfl
@[simp] theorem Regs.enterField_field (f : FrameField) (r : Regs) : (r.enterField f).field = f := rfl
@[simp] theorem Regs.enterField_need (f : FrameField) (r : Regs) : (r.enterField f).need = f.width := rfl
@[simp] theorem Regs.enterField_shreg (f : FrameField) (r : Regs) : (r.enterField f).shreg = 0 := rfl
@[simp] theorem Regs.enterField_rawCnt (f : FrameField) (r : Regs) : (r.enterField f).rawCnt = r.rawCnt := rfl
@[simp] theorem Regs.enterField_rawStatus (f : FrameField) (r : Regs) : (r.enterField f).rawStatus = r.rawStatus := rfl
@[simp] theorem Regs.enterField_firstTs (f : FrameField) (r : Regs) : (r.enterField f).firstTs = r.firstTs := rfl
@[simp] theorem Regs.enterField_firstTsValid (f : FrameField) (r : Regs) : (r.enterField f).firstTsValid = r.firstTsValid := rfl
@[simp] theorem Regs.enterField_ones (f : FrameField) (r : Regs) : (r.enterField f).ones = r.ones := rfl
@[simp] theorem Regs.enterField_frTs (f : FrameField) (r : Regs) : (r.enterField f).frTs = r.frTs := rfl
@[simp] theorem Regs.enterField_frOp (f : FrameField) (r : Regs) : (r.enterField f).frOp = r.frOp := rfl
@[simp] theorem Regs.enterField_frPhy (f : FrameField) (r : Regs) : (r.enterField f).frPhy = r.frPhy := rfl
@[simp] theorem Regs.enterField_frReg (f : FrameField) (r : Regs) : (r.enterField f).frReg = r.frReg := rfl
@[simp] theorem Regs.enterField_frData (f : FrameField) (r : Regs) : (r.enterField f).frData = r.frData := rfl
@[simp] theorem Regs.enterField_frValid (f : FrameField) (r : Regs) : (r.enterField f).frValid = r.frValid := rfl
@[simp] theorem Regs.enterField_broadcom (f : FrameField) (r : Regs) : (r.enterField f).broadcom = r.broadcom := rfl
@[simp] theorem Regs.enterField_resync (f : FrameField) (r : Regs) : (r.enterField f).resync = r.resync := rfl
@[simp] theorem Regs.enterField_violSeen (f : FrameField) (r : Regs) : (r.enterField f).violSeen = r.violSeen := rfl
@[simp] theorem Regs.enterField_violKind (f : FrameField) (r : Regs) : (r.enterField f).violKind = r.violKind := rfl
@[simp] theorem Regs.enterField_cmdErr (f : FrameField) (r : Regs) : (r.enterField f).cmdErr = r.cmdErr := rfl

/-! `Regs.emitFrame` -/

@[simp] theorem Regs.emitFrame_pos (v : BitVec 16) (r : Regs) : (r.emitFrame v).pos = r.pos := rfl
@[simp] theorem Regs.emitFrame_phase (v : BitVec 16) (r : Regs) : (r.emitFrame v).phase = r.phase := rfl
@[simp] theorem Regs.emitFrame_prevClk (v : BitVec 16) (r : Regs) : (r.emitFrame v).prevClk = r.prevClk := rfl
@[simp] theorem Regs.emitFrame_status (v : BitVec 16) (r : Regs) : (r.emitFrame v).status = r.status := rfl
@[simp] theorem Regs.emitFrame_field (v : BitVec 16) (r : Regs) : (r.emitFrame v).field = .pre := rfl
@[simp] theorem Regs.emitFrame_need (v : BitVec 16) (r : Regs) : (r.emitFrame v).need = 0 := rfl
@[simp] theorem Regs.emitFrame_shreg (v : BitVec 16) (r : Regs) : (r.emitFrame v).shreg = 0 := rfl
@[simp] theorem Regs.emitFrame_rawCnt (v : BitVec 16) (r : Regs) : (r.emitFrame v).rawCnt = r.rawCnt := rfl
@[simp] theorem Regs.emitFrame_rawStatus (v : BitVec 16) (r : Regs) : (r.emitFrame v).rawStatus = r.rawStatus := rfl
@[simp] theorem Regs.emitFrame_firstTs (v : BitVec 16) (r : Regs) : (r.emitFrame v).firstTs = r.firstTs := rfl
@[simp] theorem Regs.emitFrame_firstTsValid (v : BitVec 16) (r : Regs) : (r.emitFrame v).firstTsValid = r.firstTsValid := rfl
@[simp] theorem Regs.emitFrame_ones (v : BitVec 16) (r : Regs) : (r.emitFrame v).ones = 0 := rfl
@[simp] theorem Regs.emitFrame_frTs (v : BitVec 16) (r : Regs) : (r.emitFrame v).frTs = r.frTs := rfl
@[simp] theorem Regs.emitFrame_frOp (v : BitVec 16) (r : Regs) : (r.emitFrame v).frOp = r.frOp := rfl
@[simp] theorem Regs.emitFrame_frPhy (v : BitVec 16) (r : Regs) : (r.emitFrame v).frPhy = r.frPhy := rfl
@[simp] theorem Regs.emitFrame_frReg (v : BitVec 16) (r : Regs) : (r.emitFrame v).frReg = r.frReg := rfl
@[simp] theorem Regs.emitFrame_frData (v : BitVec 16) (r : Regs) : (r.emitFrame v).frData = v := rfl
@[simp] theorem Regs.emitFrame_frValid (v : BitVec 16) (r : Regs) : (r.emitFrame v).frValid = true := rfl
@[simp] theorem Regs.emitFrame_broadcom (v : BitVec 16) (r : Regs) : (r.emitFrame v).broadcom = r.broadcom := rfl
@[simp] theorem Regs.emitFrame_resync (v : BitVec 16) (r : Regs) : (r.emitFrame v).resync = r.resync := rfl
@[simp] theorem Regs.emitFrame_violSeen (v : BitVec 16) (r : Regs) : (r.emitFrame v).violSeen = r.violSeen := rfl
@[simp] theorem Regs.emitFrame_violKind (v : BitVec 16) (r : Regs) : (r.emitFrame v).violKind = r.violKind := rfl
@[simp] theorem Regs.emitFrame_cmdErr (v : BitVec 16) (r : Regs) : (r.emitFrame v).cmdErr = r.cmdErr := rfl

end Sys2Proof.Machine
end

