-- ==== Sys2Proof/Laws/Ops.lean ====
section
/-! SUPPORT. What each shared operation can do, once, for proofs to cite. -/

namespace Sys2Proof.Machine

/-! ## Memory -/

theorem Memory.wf_iff (m : Memory) : m.wf = true ↔ m.records.length ≤ 2 ^ 32 - 1 := decide_eq_true_iff

/-- A record exists exactly below N (R66). -/
theorem Memory.read_eq_none_iff (m : Memory) (i : Nat) : m.read i = none ↔ m.size ≤ i := by
  simp [Memory.read, Memory.size]

theorem Memory.lt_size_of_read {m : Memory} {i : Nat} {x : Sample} (h : m.read i = some x) :
    i < m.size := by
  simp only [Memory.read] at h
  exact (List.getElem?_eq_some_iff.mp h).1

/-- The records from the cursor on begin with the one the next `Advance` reads. -/
theorem State.ahead_eq_cons {s : State} {x : Sample} (h : s.mem.read s.regs.pos = some x) :
    s.ahead = x :: s.mem.records.drop (s.regs.pos + 1) := by
  simp only [Memory.read] at h
  obtain ⟨hlt, rfl⟩ := List.getElem?_eq_some_iff.mp h
  exact List.drop_eq_getElem_cons hlt

theorem State.ahead_eq_nil {s : State} (h : s.mem.read s.regs.pos = none) : s.ahead = [] := by
  simpa [Memory.read, State.ahead] using h

/-! ## Conditions and accepted bits: what they leave alone -/

/-- The registers no condition and no accepted bit writes. -/
structure Regs.SameSession (r r' : Regs) : Prop where
  pos : r'.pos = r.pos
  phase : r'.phase = r.phase
  prevClk : r'.prevClk = r.prevClk
  rawCnt : r'.rawCnt = r.rawCnt
  broadcom : r'.broadcom = r.broadcom
  resync : r'.resync = r.resync

theorem Regs.SameSession.refl (r : Regs) : r.SameSession r := ⟨rfl, rfl, rfl, rfl, rfl, rfl⟩

theorem Regs.violation_same (k : ViolKind) (r : Regs) : r.SameSession (r.violation k) := by
  unfold Regs.violation
  split
  · exact ⟨rfl, rfl, rfl, rfl, rfl, rfl⟩
  · cases k <;> exact ⟨rfl, rfl, rfl, rfl, rfl, rfl⟩

theorem Regs.raise_same (c : Condition) (r : Regs) : r.SameSession (r.raise c) := by
  cases c
  case preambleShort => exact r.violation_same _
  case startMismatch => exact r.violation_same _
  all_goals exact ⟨rfl, rfl, rfl, rfl, rfl, rfl⟩

theorem Regs.endOfStream_same (r : Regs) : r.SameSession r.endOfStream := by
  unfold Regs.endOfStream
  split
  · exact r.raise_same _
  · split <;> exact r.raise_same _
  · exact .refl r

theorem Regs.acceptRaw_same (b : Bool) (t : Ts) (r : Regs) : r.SameSession (r.acceptRaw b t) := by
  unfold Regs.acceptRaw Regs.latchFirstTs
  constructor <;> (repeat' split) <;> rfl

theorem Regs.acceptPre_same (b : Bool) (t : Ts) (r : Regs) : r.SameSession (r.acceptPre b t) := by
  unfold Regs.acceptPre
  split
  · exact ⟨rfl, rfl, rfl, rfl, rfl, rfl⟩
  · split
    · exact ⟨rfl, rfl, rfl, rfl, rfl, rfl⟩
    · exact r.raise_same _

theorem Regs.acceptSt1_same (b : Bool) (r : Regs) : r.SameSession (r.acceptSt1 b) := by
  unfold Regs.acceptSt1
  split
  · exact ⟨rfl, rfl, rfl, rfl, rfl, rfl⟩
  · exact r.raise_same _

theorem Regs.completeField_same (v : BitVec 16) (r : Regs) : r.SameSession (r.completeField v) := by
  unfold Regs.completeField
  split <;> exact ⟨rfl, rfl, rfl, rfl, rfl, rfl⟩

theorem Regs.acceptCounted_same (b : Bool) (r : Regs) : r.SameSession (r.acceptCounted b) := by
  unfold Regs.acceptCounted
  dsimp only
  split
  · exact r.completeField_same _
  · exact ⟨rfl, rfl, rfl, rfl, rfl, rfl⟩

theorem Regs.acceptDecode_same (b : Bool) (t : Ts) (r : Regs) : r.SameSession (r.acceptDecode b t) := by
  unfold Regs.acceptDecode
  split
  · exact r.acceptPre_same b t
  · exact r.acceptSt1_same b
  all_goals exact r.acceptCounted_same b

theorem Regs.acceptBit_same (b : Bool) (t : Ts) (r : Regs) : r.SameSession (r.acceptBit b t) := by
  unfold Regs.acceptBit
  split
  · exact r.acceptRaw_same b t
  · exact r.acceptDecode_same b t
  · exact .refl r

/-- No accepted bit and no end of stream touches `cmd_err` (R35). -/
theorem Regs.acceptBit_cmdErr (b : Bool) (t : Ts) (r : Regs) : (r.acceptBit b t).cmdErr = r.cmdErr := by
  unfold Regs.acceptBit Regs.acceptRaw Regs.latchFirstTs Regs.acceptDecode Regs.acceptPre Regs.acceptSt1
    Regs.acceptCounted Regs.completeField Regs.raise Regs.violation
  dsimp only
  (repeat' split) <;> simp

theorem Regs.endOfStream_cmdErr (r : Regs) : r.endOfStream.cmdErr = r.cmdErr := by
  unfold Regs.endOfStream Regs.raise
  dsimp only
  (repeat' split) <;> simp

/-- `viol_seen` is only ever set (R34). -/
theorem Regs.acceptBit_violSeen (b : Bool) (t : Ts) (r : Regs) (h : r.violSeen = true) :
    (r.acceptBit b t).violSeen = true := by
  unfold Regs.acceptBit Regs.acceptRaw Regs.latchFirstTs Regs.acceptDecode Regs.acceptPre Regs.acceptSt1
    Regs.acceptCounted Regs.completeField Regs.raise Regs.violation
  dsimp only
  (repeat' split) <;> simp [h]

theorem Regs.endOfStream_violSeen (r : Regs) : r.endOfStream.violSeen = r.violSeen := by
  unfold Regs.endOfStream Regs.raise
  dsimp only
  (repeat' split) <;> simp

/-! ## The one-sample step -/

/-- The predicate of R110 on registers and on a list of records agree. -/
theorem Regs.yields_eq_yieldsAfter (r : Regs) (x : Sample) :
    r.yields x = yieldsAfter r.phase r.prevLevel x := by
  unfold Regs.yields yieldsAfter Regs.prevLevel
  by_cases h : r.pos = 0
  · simp [h]
  · have h' : (r.pos == 0) = false := by simpa using h
    rw [if_neg h, h']
    cases r.prevClk <;> cases r.phase <;> rfl

theorem Regs.prevLevel_examine (x : Sample) (r : Regs) : (r.examine x).prevLevel = some x.clk := by
  simp [Regs.prevLevel]

theorem State.advanceOn_none (s : State) : s.advanceOn none = s.withRegs s.regs.endOfStream := rfl

theorem State.advanceOn_yield {s : State} {x : Sample} (h : s.regs.yields x = true) :
    s.advanceOn (some x) =
      { s.emitBit x with regs := (s.regs.examine x).acceptBit x.dat x.ts } := by
  simp [State.advanceOn, h]

theorem State.advanceOn_skip {s : State} {x : Sample} (h : s.regs.yields x = false) :
    s.advanceOn (some x) = s.withRegs (s.regs.examine x) := by
  simp [State.advanceOn, h]

/-- What an `Advance` never touches: the sample memory (R62), the host's inputs and the frames handed
over. -/
theorem State.advanceOn_keeps (o : Option Sample) (s : State) :
    (s.advanceOn o).mem = s.mem ∧ (s.advanceOn o).inbox = s.inbox ∧ (s.advanceOn o).popLog = s.popLog
      ∧ (s.advanceOn o).popOut = none := by
  unfold State.advanceOn
  split
  · simp
  · split <;> simp

theorem State.runTick_of_examining {s : State} (h : s.regs.examining = true) : s.runTick = s.advance := by
  simp [State.runTick, h]

theorem State.runTick_of_not_examining {s : State} (h : s.regs.examining = false) :
    s.runTick = s.quiet := by
  simp [State.runTick, h]

theorem State.runTick_keeps (s : State) :
    s.runTick.mem = s.mem ∧ s.runTick.inbox = s.inbox ∧ s.runTick.popLog = s.popLog
      ∧ s.runTick.popOut = none := by
  unfold State.runTick State.advance
  split
  · exact s.advanceOn_keeps _
  · simp

theorem State.refuseCommand_keeps (s : State) :
    s.refuseCommand.mem = s.mem ∧ s.refuseCommand.inbox = s.inbox ∧ s.refuseCommand.popLog = s.popLog
      ∧ s.refuseCommand.popOut = none := by
  unfold State.refuseCommand
  exact State.runTick_keeps _

/-! ## A frame body on the line -/

theorem State.takeBit_keeps (b : Bool) (xs : List Sample) (s : State) :
    (s.takeBit b xs).mem = s.mem ∧ (s.takeBit b xs).inbox = s.inbox
      ∧ (s.takeBit b xs).popLog = s.popLog := by
  induction xs generalizing s with
  | nil =>
    have h := s.advanceOn_keeps none
    exact ⟨h.1, h.2.1, h.2.2.1⟩
  | cons x xs ih =>
    simp only [State.takeBit]
    split
    · have h := s.advanceOn_keeps (some { x with dat := b })
      exact ⟨h.1, h.2.1, h.2.2.1⟩
    · have h := s.advanceOn_keeps (some x)
      have h' := ih (s.advanceOn (some x))
      exact ⟨h'.1.trans h.1, h'.2.1.trans h.2.1, h'.2.2.trans h.2.2.1⟩

theorem State.deliver_keeps (s : State) (b : Bool) :
    (s.deliver b).mem = s.mem ∧ (s.deliver b).inbox = s.inbox ∧ (s.deliver b).popLog = s.popLog := by
  unfold State.deliver
  split
  · exact State.takeBit_keeps b _ s
  · simp

theorem State.deliverAll_keeps (bits : List Bool) (s : State) :
    (s.deliverAll bits).mem = s.mem ∧ (s.deliverAll bits).inbox = s.inbox
      ∧ (s.deliverAll bits).popLog = s.popLog := by
  induction bits generalizing s with
  | nil => exact ⟨rfl, rfl, rfl⟩
  | cons b bs ih =>
    have h := s.deliver_keeps b
    have h' := ih (s.deliver b)
    exact ⟨h'.1.trans h.1, h'.2.1.trans h.2.1, h'.2.2.trans h.2.2⟩

/-! ## Reset -/

/-- What a reset tick can answer. -/
theorem State.resetTick_cases {c : Option Memory} {s t : State} (h : s.resetTick c = .next t) :
    t.regs = Regs.reset ∧ t.inbox = s.inbox ∧ t.bitOut = none ∧ t.popOut = none ∧ t.bitLog = []
      ∧ t.popLog = [] ∧ ((c = none ∧ t.mem = s.mem) ∨ (c = some t.mem ∧ t.mem.wf = true)) := by
  unfold State.resetTick at h
  cases c with
  | none =>
    obtain rfl : _ = t := by simpa using h
    exact ⟨rfl, rfl, rfl, rfl, rfl, rfl, .inl ⟨rfl, rfl⟩⟩
  | some m =>
    by_cases hm : m.wf = true
    · obtain rfl : _ = t := by simpa [hm] using h
      exact ⟨rfl, rfl, rfl, rfl, rfl, rfl, .inr ⟨rfl, hm⟩⟩
    · simp [hm] at h

/-- The memory in force after a reset tick meets R6 if the one before did. -/
theorem State.resetTick_keeps_wf {c : Option Memory} {s t : State} (h : s.resetTick c = .next t)
    (hw : s.mem.wf = true) : t.mem.wf = true := by
  obtain ⟨-, -, -, -, -, -, ⟨-, hm⟩ | ⟨-, hm⟩⟩ := State.resetTick_cases h
  · rw [hm]; exact hw
  · exact hm

theorem State.resetTick_too_long {m : Memory} (h : 2 ^ 32 - 1 < m.records.length) (s : State) :
    s.resetTick (some m) = .refused .captureTooLong := by
  have hm : ¬ m.wf = true := by rw [Memory.wf_iff]; omega
  simp [State.resetTick, hm]

theorem State.resetTick_load {m : Memory} (h : m.records.length ≤ 2 ^ 32 - 1) (s : State) :
    s.resetTick (some m) =
      .next { s.withRegs Regs.reset with bitLog := [], popLog := [], mem := m } := by
  have hm : m.wf = true := (Memory.wf_iff m).mpr h
  simp [State.resetTick, hm]

/-! ## The marks of R246 -/

/-- What a clean session is, in registers. -/
theorem State.cleanSession_iff (s : State) :
    s.cleanSession = true ↔
      s.regs.cmdErr = false ∧ s.regs.violSeen = false ∧ s.regs.status ≠ .doneTrunc ∧
        s.regs.status ≠ .errPreamble ∧ s.regs.status ≠ .errStart ∧ s.regs.status ≠ .errMode := by
  unfold State.cleanSession State.sessionFault State.constructionFault State.endedTruncated
    State.refusalMark State.violationMark
  cases s.regs.status <;> cases s.regs.cmdErr <;> cases s.regs.violSeen <;> decide

/-- U1: a truncated end is not a clean one. -/
theorem State.not_endedClean_of_endedTruncated {s : State} (h : s.endedTruncated = true) :
    s.endedClean = false ∧ s.cleanSession = false := by
  have hs : s.regs.status = .doneTrunc := by simpa [State.endedTruncated] using h
  simp [State.endedClean, State.cleanSession, State.endedTruncated, hs]

theorem State.reset_mem_wf : State.reset.mem.wf = true := by decide

end Sys2Proof.Machine
end

