-- ==== Sys2Proof/Laws/PerInstr.lean ====
section
/-! SUPPORT. Each well-formed instruction's word lies in its row of spec/opcode_table.json. -/

namespace Sys2Proof.Laws.TableRow

open Sys2Proof

/-- A row of the table. Each of its masks has ones in every bit from `free` up and zeros below. -/
structure Row where
  width : Nat
  free : Nat
  pattern : Nat

/-- The rows, copied from the table: mask 0xF0000000 is `free` = 28, 0xFE is 1, 0xF0 is 4, 0xFC is 2,
0xFF is 0. -/
def row : Instr → Row
  | .frameOp0 _ _ _ _ => ⟨32, 28, 0x40000000⟩
  | .frameOp1 _ _ _ _ => ⟨32, 28, 0x50000000⟩
  | .frameOp2 _ _ _ _ => ⟨32, 28, 0x60000000⟩
  | .frameOp3 _ _ _ _ => ⟨32, 28, 0x70000000⟩
  | .nop => ⟨8, 0, 0x00⟩
  | .setph _ => ⟨8, 1, 0x20⟩
  | .rdbits _ => ⟨8, 4, 0x40⟩
  | .rdbits16 => ⟨8, 0, 0x50⟩
  | .start _ _ => ⟨8, 2, 0x60⟩
  | .pop => ⟨8, 0, 0x80⟩

/-- The width and the value of a word. -/
def bitsOf : Word → Nat × Nat
  | .command w => (8, w.toNat)
  | .body w => (32, w.toNat)

/-- The word of `i` has its row's width and, above the row's free bits, its row's pattern. -/
def Statement (i : Instr) : Prop :=
  i.wf = true →
    (bitsOf (encode i)).1 = (row i).width ∧
      (bitsOf (encode i)).2 / 2 ^ (row i).free = (row i).pattern / 2 ^ (row i).free

/-- The top four bits of a body word are 01 and the operation. -/
theorem body_row (k : Nat) (op : BitVec 2) (phy reg : BitVec 5) (ta : BitVec 2) (data : BitVec 16)
    (h : 4 + op.toNat = k / 2 ^ 28) : (encodeBody op phy reg ta data).toNat / 2 ^ 28 = k / 2 ^ 28 := by
  rw [encodeBody_toNat]
  omega

theorem frameOp0 (phy reg : BitVec 5) (ta : BitVec 2) (data : BitVec 16) :
    Statement (.frameOp0 phy reg ta data) := fun _ =>
  ⟨rfl, body_row 0x40000000 0 phy reg ta data (by decide)⟩

theorem frameOp1 (phy reg : BitVec 5) (ta : BitVec 2) (data : BitVec 16) :
    Statement (.frameOp1 phy reg ta data) := fun _ =>
  ⟨rfl, body_row 0x50000000 1 phy reg ta data (by decide)⟩

theorem frameOp2 (phy reg : BitVec 5) (ta : BitVec 2) (data : BitVec 16) :
    Statement (.frameOp2 phy reg ta data) := fun _ =>
  ⟨rfl, body_row 0x60000000 2 phy reg ta data (by decide)⟩

theorem frameOp3 (phy reg : BitVec 5) (ta : BitVec 2) (data : BitVec 16) :
    Statement (.frameOp3 phy reg ta data) := fun _ =>
  ⟨rfl, body_row 0x70000000 3 phy reg ta data (by decide)⟩

theorem nop : Statement .nop := fun _ => by decide

theorem setph (p : Bool) : Statement (.setph p) := fun _ => by cases p <;> decide

theorem rdbits (c : BitVec 5) : Statement (.rdbits c) := by
  intro h
  have hc : c.toNat < 16 := by simpa [Instr.wf] using h
  refine ⟨rfl, ?_⟩
  have hw : (encodeCommand 0b010#3 c).toNat = 0x40 + c.toNat := by
    rw [show encodeCommand 0b010#3 c = 0b010#3 ++ c from rfl, toNat_append_eq]
    rfl
  show (encodeCommand 0b010#3 c).toNat / 2 ^ 4 = 0x40 / 2 ^ 4
  omega

theorem rdbits16 : Statement .rdbits16 := fun _ => by decide

theorem start (b r : Bool) : Statement (.start b r) := fun _ => by cases b <;> cases r <;> decide

theorem pop : Statement .pop := fun _ => by decide

end Sys2Proof.Laws.TableRow
end

