-- ==== Sys2Proof/Tests/Slice0.lean ====
section
/-! SUPPORT. The model's own tests: words written out from 30_encoding.md, single steps with the values
of spec/95_test_vectors.md (the vector's id is in each docstring), and for every obligation with
hypotheses a concrete state that meets them. -/

namespace Sys2Proof.Tests

open Sys2Proof Sys2Proof.Machine

/-! ## Small states -/

/-- The capture E of V4. -/
def capE : Memory :=
  ⟨[⟨100, false, true⟩, ⟨101, false, false⟩, ⟨102, true, false⟩, ⟨103, true, true⟩,
    ⟨104, false, false⟩, ⟨105, true, true⟩, ⟨106, false, true⟩, ⟨107, false, false⟩]⟩

/-- Registers `r` over the capture `m`, nothing else. -/
def at_ (m : Memory) (r : Regs) : State := { State.reset with mem := m, regs := r }

/-- A raw read of `c` bits begun at reset. -/
def rawRegs (c : BitVec 5) : Regs := { Regs.reset with status := .raw, rawCnt := c, need := c }

/-- A decode begun at reset, in abort mode. -/
def decRegs : Regs := { Regs.reset with status := .decode, broadcom := true }

/-- A one-record capture: a sample at clock level 0, which yields at index 0. -/
def one (b : Bool) : Memory := ⟨[⟨7, false, b⟩]⟩

/-- A counted field with one bit missing, over `one true`. -/
def lastBit (f : FrameField) : State :=
  at_ (one true) { decRegs with field := f, need := 1, ones := 16, frTs := some 3 }

/-- A frame that waits: that of V1 after tick 96, over an empty capture. -/
def waitingRegs : Regs :=
  { decRegs with frTs := some 32, frOp := 2, frPhy := 1, frReg := 2, frData := 16, frValid := true }

def waiting : State := at_ capE waitingRegs

/-- The body `w` where a step meets it. -/
def withBody (w : Nat) : State := State.reset.withFetchWord 32 w

/-! ## Well-formed and ill-formed terms -/

/-- R89, R91: the row 0x40 to 0x4F carries counts below 16. -/
theorem test_wf_refuses_count : (Instr.rdbits 16).wf = false ∧ (Instr.rdbits 31).wf = false := by decide

theorem test_wf_accepts_count : (Instr.rdbits 0).wf = true ∧ (Instr.rdbits 15).wf = true := by decide

/-! ## Words written out from the encodings (R81, R88, R89) -/

/-- V30, V31: `01 00` and the fields. -/
theorem test_decode_frameOp0 : decode (.body 0b01000000000000000000000000000000) = .ok (.frameOp0 0 0 0 0)
    ∧ decode (.body 0b01001111111111111111111111111111) = .ok (.frameOp0 31 31 3 0xFFFF) := by decide

/-- L1b: `01 01 00001 00010 10 0001001000110100`. -/
theorem test_decode_frameOp1 :
    decode (.body 0b01010000100010100001001000110100) = .ok (.frameOp1 1 2 2 0x1234) := by decide

/-- V1: `01 10 00001 00010 00 0000000000010000`. -/
theorem test_decode_frameOp2 :
    decode (.body 0b01100000100010000000000000010000) = .ok (.frameOp2 1 2 0 16) := by decide

/-- V37: `01 11 11111 11111 00 1111111111111111`. -/
theorem test_decode_frameOp3 :
    decode (.body 0b01111111111111001111111111111111) = .ok (.frameOp3 31 31 0 0xFFFF) := by decide

theorem test_decode_nop : decode (.command 0b00000000) = .ok .nop := by decide

theorem test_decode_setph : decode (.command 0b00100000) = .ok (.setph false)
    ∧ decode (.command 0b00100001) = .ok (.setph true) := by decide

theorem test_decode_rdbits : decode (.command 0b01000011) = .ok (.rdbits 3)
    ∧ decode (.command 0b01000000) = .ok (.rdbits 0)
    ∧ decode (.command 0b01001111) = .ok (.rdbits 15) := by decide

theorem test_decode_rdbits16 : decode (.command 0b01010000) = .ok .rdbits16 := by decide

/-- `opd[0]` is b, `opd[1]` is r. -/
theorem test_decode_start : decode (.command 0b01100001) = .ok (.start true false)
    ∧ decode (.command 0b01100010) = .ok (.start false true) := by decide

theorem test_decode_pop : decode (.command 0b10000000) = .ok .pop := by decide

/-- V22, V23: refused words, by name. -/
theorem test_decode_refuses : decode (.command 0xA0) = .error (.reservedOpcode 5)
    ∧ decode (.command 0xFF) = .error (.reservedOpcode 7)
    ∧ decode (.command 0x01) = .error .reservedOperandBits
    ∧ decode (.command 0x81) = .error .reservedOperandBits
    ∧ decode (.command 0x22) = .error .reservedOperandBits
    ∧ decode (.command 0x64) = .error .reservedOperandBits
    ∧ decode (.command 0x51) = .error .countTooLarge
    ∧ decode (.command 0x5F) = .error .countTooLarge := by decide

theorem test_encode_words : encode (.start true true) = .command 0x63 ∧ encode (.setph true) = .command 0x21
    ∧ encode .rdbits16 = .command 0x50 ∧ encode (.frameOp1 1 2 2 0x1234) = .body 0x508A1234 := by decide

/-- The two words of the table the host asks for, one of each width. -/
theorem test_decodeTableWord : decodeTableWord 8 0x80 = some .pop
    ∧ decodeTableWord 32 0x60880010 = some (.frameOp2 1 2 0 16) ∧ decodeTableWord 16 0 = none := by decide

/-! ## Single steps -/

/-- V18, tick 2 without the SETPH: a bit of a raw read of two. -/
theorem test_nop_raw_bit : let t := hostTick 0x00 (at_ capE (rawRegs 2))
    t.regs.pos = 1 ∧ t.regs.need = 1 ∧ t.regs.shreg = 1 ∧ t.regs.firstTs = some 100
      ∧ t.regs.status = .raw ∧ t.bitOut = some ⟨true, 100⟩ := by decide

/-- V9, second read: index 1 has clock level 0 and is skipped at phase 1. -/
theorem test_nop_skips : let t := hostTick 0x00 (at_ capE { rawRegs 1 with phase := true, pos := 1 })
    t.regs.pos = 2 ∧ t.regs.need = 1 ∧ t.bitOut = none := by decide

/-- V21: SETPH 1 at reset. -/
theorem test_setph : let t := hostTick 0x21 (at_ capE Regs.reset)
    t.regs = { Regs.reset with phase := true } := by decide

/-- V18: SETPH in ST_RAW is refused and the tick still examines. -/
theorem test_setph_refused : let t := hostTick 0x21 (at_ capE (rawRegs 2))
    t.regs.cmdErr = true ∧ t.regs.phase = false ∧ t.regs.pos = 1 ∧ t.regs.need = 1 := by decide

/-- V5, its command tick. -/
theorem test_rdbits_begins : let t := hostTick 0x43 (at_ capE Regs.reset)
    t.regs.status = .raw ∧ t.regs.need = 3 ∧ t.regs.rawCnt = 3 ∧ t.regs.pos = 0 := by decide

/-- V10, continuing V8: count 0 at the end of the capture. -/
theorem test_rdbits_zero : let t := hostTick 0x40 (at_ capE { Regs.reset with pos := 8, rawCnt := 1 })
    t.regs.status = .idle ∧ t.regs.rawStatus = .ok ∧ t.regs.rawCnt = 0 ∧ t.regs.pos = 8 := by decide

/-- V11, its command tick. -/
theorem test_rdbits16_begins : let t := hostTick 0x50 (at_ capE Regs.reset)
    t.regs.status = .raw ∧ t.regs.need = 16 ∧ t.regs.rawCnt = 16 := by decide

/-- V12: a count of 17 is refused. -/
theorem test_rdbits17_refused :
    (hostTick 0x51 (at_ capE Regs.reset)).regs = { Regs.reset with cmdErr := true } := by decide

/-- V24: START 0, 0. -/
theorem test_start_mode_error : let t := hostTick 0x60 (at_ capE Regs.reset)
    t.regs = { Regs.reset with status := .errMode } := by decide

/-- V21: START at phase 1 is refused. -/
theorem test_start_refused : let t := hostTick 0x61 (at_ capE { Regs.reset with phase := true })
    t.regs = { Regs.reset with phase := true, cmdErr := true } := by decide

/-- V1, tick 97. -/
theorem test_pop : let t := hostTick 0x80 waiting
    t.popOut = some ⟨some 32, 2, 1, 2, 16⟩ ∧ t.regs = { waitingRegs with frValid := false } := by decide

/-- V25: POP while no frame waits. -/
theorem test_pop_refused : let t := hostTick 0x80 (at_ capE decRegs)
    t.regs.cmdErr = true ∧ t.regs.pos = 1 ∧ t.regs.ones = 1 ∧ t.popOut = none := by decide

/-! V30 to V37's fields, one row of each operation, as the step after `withFetchWord` decodes them. -/

set_option maxRecDepth 8192 in
theorem test_step_frameOp0 : let t := (withBody 0x4FFFFFFF).after (step (withBody 0x4FFFFFFF))
    t.regs.frOp = 0 ∧ t.regs.frPhy = 31 ∧ t.regs.frReg = 31 ∧ t.regs.frData = 0xFFFF
      ∧ t.regs.frValid = true := by decide

set_option maxRecDepth 8192 in
theorem test_step_frameOp1 : let t := (withBody 0x508A1234).after (step (withBody 0x508A1234))
    t.regs.frOp = 1 ∧ t.regs.frPhy = 1 ∧ t.regs.frReg = 2 ∧ t.regs.frData = 0x1234
      ∧ t.regs.frWr = true := by decide

set_option maxRecDepth 8192 in
theorem test_step_frameOp2 : let t := (withBody 0x60880010).after (step (withBody 0x60880010))
    t.regs.frOp = 2 ∧ t.regs.frPhy = 1 ∧ t.regs.frReg = 2 ∧ t.regs.frData = 16
      ∧ t.regs.frWr = false ∧ t.regs.ones = 0 := by decide

set_option maxRecDepth 8192 in
theorem test_step_frameOp3 : let t := (withBody 0x70030000).after (step (withBody 0x70030000))
    t.regs.frOp = 3 ∧ t.regs.frPhy = 0 ∧ t.regs.frData = 0 ∧ t.regs.frWr = false
      ∧ t.bitLog.length = 32 := by decide

/-- V27: a command in a terminal status. -/
theorem test_terminal : (hostTick 0x61 (at_ capE { decRegs with status := .doneTrunc })).regs
    = { decRegs with status := .doneTrunc, cmdErr := true } := by decide

/-- V28: reset beats the command. -/
theorem test_reset_tick : let s := { waiting with inbox := [HostInput.reset 0x80 none] }
    (s.after (step s)).regs = Regs.reset ∧ (s.after (step s)).popOut = none := by decide

/-- V26: five stalled NOPs. -/
theorem test_stall : (nops 5 waiting).regs = waitingRegs := by decide

/-- V49 and V50: the end of the capture in F_PRE and in F_ST1. -/
theorem test_end_of_stream :
    (hostTick 0x00 (at_ ⟨[]⟩ decRegs)).regs.status = .doneClean
      ∧ (hostTick 0x00 (at_ ⟨[]⟩ { decRegs with field := .st1 })).regs.status = .doneTrunc := by decide

/-- V50 and V49: a truncated end is no clean session, a clean end is one (R246, U1). -/
theorem test_truncated_is_not_clean :
    (let t := hostTick 0x00 (at_ ⟨[]⟩ { decRegs with field := .st1 })
     t.endedTruncated = true ∧ t.endedClean = false ∧ t.cleanSession = false) ∧
    (let t := hostTick 0x00 (at_ ⟨[]⟩ decRegs)
     t.endedTruncated = false ∧ t.endedClean = true ∧ t.cleanSession = true) := by decide

/-- V41: the 0-bit after 15 ones. -/
theorem test_preamble_short : let t := hostTick 0x00 (at_ (one false) { decRegs with ones := 15 })
    t.regs.status = .errPreamble ∧ t.regs.pos = 1 ∧ t.regs.ones = 15 := by decide

/-- V45 and V48: the 0-bit in F_ST1, in each mode. -/
theorem test_start_mismatch :
    (hostTick 0x00 (at_ (one false) { decRegs with field := .st1, ones := 16 })).regs.status = .errStart
      ∧ (let t := hostTick 0x00 (at_ (one false) { decRegs with field := .st1, ones := 16, resync := true })
         t.regs.violSeen = true ∧ t.regs.violKind = .startMismatch ∧ t.regs.field = .pre
           ∧ t.regs.ones = 0 ∧ t.regs.status = .decode) := by decide

/-- V5's views: integer 5, bits 1, 0, 1. -/
theorem test_raw_views : let r := { Regs.reset with shreg := 5, rawCnt := 3 }
    r.rawInt = 5 ∧ r.rawBits = [true, false, true] := by decide

/-- L1b: the document's example line, `0.0001234 w 0x01 0x02 0x1234`. -/
theorem test_output_line :
    Frame.line ['0', '.', '0', '0', '0', '1', '2', '3', '4'] Nat.digitChar ⟨some 320, 1, 1, 2, 0x1234⟩ =
      ['0', '.', '0', '0', '0', '1', '2', '3', '4', ' ', 'w', ' ', '0', 'x', '0', '1', ' ', '0', 'x', '0',
        '2', ' ', '0', 'x', '1', '2', '3', '4'] := by decide

/-- U9. -/
theorem test_absent_reads : State.reset.readFirstTs = .error .firstTsAbsent
    ∧ State.reset.readFrame = .error .frameAbsent := by decide

/-! ## Witnesses: states that meet an obligation's hypotheses -/

theorem test_witness_ResetTickGivesResetState :
    { waiting with inbox := [.reset 0xFF none] }.inbox = HostInput.reset 0xFF none :: [] := rfl

/-- Both clauses: a capture R6 admits, and one record more than it admits, at the bound. -/
theorem test_witness_ResetWithCaptureStartsSession :
    capE.records.length ≤ 2 ^ 32 - 1
      ∧ 2 ^ 32 - 1 < (Memory.mk (List.replicate (2 ^ 32) ⟨0, false, false⟩)).records.length := by
  refine ⟨by decide, ?_⟩
  simp only [List.length_replicate]
  decide

theorem test_witness_DecodeEncodeRoundTrip :
    (Instr.rdbits 15).wf = true ∧ (Instr.frameOp3 31 31 3 0xFFFF).wf = true := by decide

theorem test_witness_DecodedWordIsEncoding : decode (.command 0x4F) = .ok (.rdbits 15)
    ∧ decode (.body 0x7FFFFFFF) = .ok (.frameOp3 31 31 3 0xFFFF) := by decide

/-- The bounds of each range of R89's table, and the words beside them. -/
theorem test_witness_CommandWordTable :
    (15#5).toNat ≤ 15 ∧
    ∀ w ∈ [0x01#8, 0x1F#8, 0x22#8, 0x3F#8, 0x51#8, 0x5F#8, 0x64#8, 0x7F#8, 0x81#8, 0xFF#8],
      ¬ (w = 0x00 ∨ (0x20 ≤ w ∧ w ≤ 0x21) ∨ (0x40 ≤ w ∧ w ≤ 0x50) ∨ (0x60 ≤ w ∧ w ≤ 0x63) ∨
        w = 0x80) := by decide

/-- The three clauses; the second by the bits the capture of `withBody` holds. -/
theorem test_witness_StepRunsDecodedInstruction :
    decode (.command 0x21) = .ok (.setph true) ∧
    (withBody 0x508A1234).inbox = .body :: [] ∧
    (∃ bs k, (withBody 0x508A1234).readBits 32 = some (bs, k) ∧
      decode (.body (BitVec.ofNat 32 (Claims.value bs))) = .ok (.frameOp1 1 2 2 0x1234)) ∧
    State.reset.inbox = [] := by
  refine ⟨by decide, by decide, ?_, rfl⟩
  have h : ((withBody 0x508A1234).readBits 32).map
      (fun r => decode (.body (BitVec.ofNat 32 (Claims.value r.1)))) =
        some (.ok (.frameOp1 1 2 2 0x1234)) := by decide
  obtain ⟨⟨bs, k⟩, h1, h2⟩ := Option.map_eq_some_iff.mp h
  exact ⟨bs, k, h1, h2⟩

theorem test_witness_StepIsTick :
    { State.reset with inbox := [.command 0x61] }.inbox = HostInput.command 0x61 :: [] ∧
    { State.reset with inbox := [.reset 0x61 none] }.inbox = HostInput.reset 0x61 none :: [] := ⟨rfl, rfl⟩

/-- Each clause of R91's list at the ends of its range. -/
theorem test_witness_MalformedWordRefused :
    ∀ w ∈ [0xA0#8, 0xFF#8, 0x01#8, 0x1F#8, 0x81#8, 0x9F#8, 0x22#8, 0x3F#8, 0x51#8, 0x5F#8, 0x64#8,
      0x7F#8], Claims.refusedWord w := by
  unfold Claims.refusedWord
  decide

/-- An accepted and a refused state for each command the table can refuse. -/
theorem test_witness_CommandAcceptance :
    (∀ i ∈ [Instr.setph true, .rdbits 16, .rdbits16, .start true false],
      Claims.isCommand i ∧ Claims.accepted i Regs.reset ∧ ¬ Claims.accepted i decRegs) ∧
    Claims.isCommand .pop ∧ Claims.accepted .pop waitingRegs ∧ ¬ Claims.accepted .pop Regs.reset ∧
    ¬ Claims.accepted (.rdbits 17) Regs.reset ∧
    ¬ Claims.accepted (.start true false) { Regs.reset with phase := true } ∧
    Claims.isCommand .nop ∧ Claims.accepted .nop decRegs := by
  simp [Claims.isCommand, Claims.accepted, Regs.reset, decRegs, waitingRegs]

theorem test_witness_PlacedBodyIsFetched :
    (at_ capE { decRegs with pos := 8 }).regs.pos ≤ (at_ capE { decRegs with pos := 8 }).mem.size ∧
    State.reset.regs.pos ≤ State.reset.mem.size ∧
    decode (.body 0x508A1234) = .ok (.frameOp1 1 2 2 0x1234) := by decide

theorem test_witness_NopWithoutSample :
    ∀ s ∈ [State.reset, waiting, at_ capE { decRegs with status := .errStart }],
      s.regs.status ≠ .raw ∧ ¬ (s.regs.status = .decode ∧ s.regs.frValid = false) := by decide

/-- Index 1 of E, of the level of index 0. -/
theorem test_witness_SkippedSampleMovesCursorOnly :
    Claims.Examines (at_ capE { decRegs with pos := 1 }) ⟨101, false, false⟩ ∧
    ¬ Claims.Yields (at_ capE { decRegs with pos := 1 }) ⟨101, false, false⟩ := by
  unfold Claims.Examines Claims.Yields
  decide

/-- Index 4 of E yields in a state that meets the invariants, and index 1 does not. -/
theorem test_witness_BitMonitor :
    (at_ capE { decRegs with pos := 4, prevClk := true }).Inv ∧
    Claims.Examines (at_ capE { decRegs with pos := 4, prevClk := true }) ⟨104, false, false⟩ ∧
    Claims.Yields (at_ capE { decRegs with pos := 4, prevClk := true }) ⟨104, false, false⟩ := by
  refine ⟨?_, ?_, ?_⟩
  · constructor
    case prevClk =>
      intro x _ h
      obtain rfl : _ = x := Option.some.inj h
      rfl
    all_goals decide
  · unfold Claims.Examines; decide
  · unfold Claims.Yields; decide

theorem test_witness_idle : (at_ capE Regs.reset).regs.status = .idle
    ∧ (at_ capE Regs.reset).regs.phase = false := by decide

/-- RdbitsBeginsRawRead, RawReadIsReadBits, RawViewsShowTheBits: both rows, at the ends of the range. -/
theorem test_witness_rawRead :
    (at_ capE Regs.reset).readBits (0#5).toNat = some ([], 0) ∧
    (1 ≤ (1#5).toNat ∧ (1#5).toNat ≤ 15) ∧ (1 ≤ (15#5).toNat ∧ (15#5).toNat ≤ 15) ∧
    (∃ bs k, (at_ capE Regs.reset).readBits (3#5).toNat = some (bs, k)) ∧
    (∃ bs k, (at_ (trace (List.replicate 16 true) 1 0 1) Regs.reset).readBits (16#5).toNat
      = some (bs, k)) := by
  refine ⟨rfl, by decide, by decide, ?_, ?_⟩
  · have h : ((at_ capE Regs.reset).readBits 3).map (·.2) = some 7 := by decide
    obtain ⟨⟨bs, k⟩, h1, -⟩ := Option.map_eq_some_iff.mp h
    exact ⟨bs, k, h1⟩
  · have h : ((at_ (trace (List.replicate 16 true) 1 0 1) Regs.reset).readBits 16).map (·.2) = some 31 := by
      decide
    obtain ⟨⟨bs, k⟩, h1, -⟩ := Option.map_eq_some_iff.mp h
    exact ⟨bs, k, h1⟩

/-- E holds three bits at phase 0 (V4): reads of 4 and of 16 run out. -/
theorem test_witness_RawReadRunsOut : (at_ capE Regs.reset).regs.pos ≤ (at_ capE Regs.reset).mem.size
    ∧ (at_ capE Regs.reset).readBits (4#5).toNat = none
    ∧ (at_ capE Regs.reset).readBits (16#5).toNat = none := by decide

/-- A last bit (need 1) and an earlier one (need 16). -/
theorem test_witness_RawBitAccepted :
    ∀ c ∈ [1#5, 16#5], (at_ capE (rawRegs c)).regs.status = .raw ∧
      (at_ capE (rawRegs c)).mem.read (at_ capE (rawRegs c)).regs.pos = some ⟨100, false, true⟩ ∧
      Claims.Yields (at_ capE (rawRegs c)) ⟨100, false, true⟩ ∧
      1 ≤ (at_ capE (rawRegs c)).regs.need.toNat := by
  unfold Claims.Yields
  decide

theorem test_witness_RawEndOfStream : let s := at_ capE { rawRegs 1 with pos := 8 }
    s.regs.status = .raw ∧ s.regs.pos = s.mem.size := by decide

/-- PopHandsOverFrame and StallHoldsEverything. -/
theorem test_witness_waiting : waiting.regs.status = .decode ∧ waiting.regs.frValid = true := by decide

/-- A counted bit that is not the last, with the smallest and the largest count left. -/
theorem test_witness_CountedBitShiftsIn :
    ∀ p ∈ [(FrameField.op, 2#5), (.data, 16#5)],
      Claims.BitIn p.1 (at_ (one true) { decRegs with field := p.1, need := p.2 }) ⟨7, false, true⟩ ∧
        2 ≤ (at_ (one true) { decRegs with field := p.1, need := p.2 }).regs.need.toNat := by
  unfold Claims.BitIn Claims.Yields
  decide

/-- The seven rows of the table. -/
theorem test_witness_FieldTransitionTable :
    (∀ f ∈ [FrameField.op, .phy, .reg, .ta, .data],
      Claims.BitIn f (lastBit f) ⟨7, false, true⟩ ∧ (lastBit f).regs.need = 1) ∧
    (Claims.BitIn .pre (at_ (one false) { decRegs with ones := 16 }) ⟨7, false, false⟩ ∧
      16 ≤ ({ decRegs with ones := 16 } : Regs).ones.toNat) ∧
    Claims.BitIn .st1 (at_ (one true) { decRegs with field := .st1, ones := 16 }) ⟨7, false, true⟩ := by
  unfold Claims.BitIn Claims.Yields
  decide

theorem test_witness_EndOfStreamWhileDecoding :
    ∀ f ∈ [FrameField.pre, .st1, .data], let s := at_ capE { decRegs with pos := 8, field := f }
      s.regs.status = .decode ∧ s.regs.frValid = false ∧ s.regs.pos = s.mem.size := by decide

/-- The three ways a step can go: a reset, a command other than NOP, and anything else. -/
theorem test_witness_TerminalStatusAbsorbs :
    ∀ q ∈ [[HostInput.reset 0 none], [.command 0x80], [.command 0x00], [.body], []],
      let s := { at_ capE { decRegs with status := .doneClean } with inbox := q }
      s.regs.status.terminal = true ∧ ((s.after (step s)).regs.status = .doneClean ↔ q ≠ [.reset 0 none]) := by
  decide

/-- PreambleOneBitCounts, below and at saturation. -/
theorem test_witness_PreambleOneBitCounts :
    ∀ n ∈ [0#5, 15#5, 16#5],
      Claims.BitIn .pre (at_ (one true) { decRegs with ones := n }) ⟨7, false, true⟩ := by
  unfold Claims.BitIn Claims.Yields
  decide

theorem test_witness_StartBitLatchesTimestamp :
    Claims.BitIn .pre (at_ (one false) { decRegs with ones := 16 }) ⟨7, false, false⟩ ∧
      16 ≤ (at_ (one false) { decRegs with ones := 16 }).regs.ones.toNat := by
  unfold Claims.BitIn Claims.Yields
  decide

/-- The four cases: each kind in each mode, the short preamble at its longest. -/
theorem test_witness_ProtocolViolations :
    ∀ r ∈ [false, true],
      (Claims.BitIn .pre (at_ (one false) { decRegs with ones := 15, resync := r }) ⟨7, false, false⟩ ∧
        (at_ (one false) { decRegs with ones := 15, resync := r }).regs.ones.toNat < 16) ∧
      Claims.BitIn .st1 (at_ (one false) { decRegs with ones := 16, field := .st1, resync := r })
        ⟨7, false, false⟩ := by
  unfold Claims.BitIn Claims.Yields
  decide

theorem test_witness_WriteClassification : waiting.ports.frame = some ⟨some 32, 2, 1, 2, 16, false⟩ := by
  decide

/-- FrameRowsDecode, FrameRowIsNopTicks, FrameThenPopDelivers: a frame of each operation ahead of a block
that is ready for it. -/
theorem test_witness_frameAhead (op : BitVec 2) :
    let s := withBody (0x408A1234 + op.toNat * 2 ^ 28)
    Claims.FrameReady s ∧ ∃ b bs k, Claims.BodyAhead s (b :: bs) k op 1 2 2 0x1234 := by
  have h : ∀ op : BitVec 2,
      let s := withBody (0x408A1234 + op.toNat * 2 ^ 28)
      (s.regs.status = .decode ∧ s.regs.frValid = false ∧ s.regs.field = .pre ∧ 16 ≤ s.regs.ones.toNat) ∧
        (s.readBits 32).map (fun r => r.1.map (·.value)) = some (bodyBits op 1 2 2 0x1234) := by decide
  refine ⟨(h op).1, ?_⟩
  obtain ⟨⟨bs, k⟩, h1, h2⟩ := Option.map_eq_some_iff.mp (h op).2
  cases bs with
  | nil => simp [bodyBits, bitsMsbFirst] at h2
  | cons b bs => exact ⟨b, bs, k, h1, h2⟩

/-- FramePassesUnexamined. -/
theorem test_witness_FramePassesUnexamined :
    ∀ s ∈ [State.reset, waiting], s.regs.status ≠ .raw ∧
      ¬ (s.regs.status = .decode ∧ s.regs.frValid = false) := by decide

/-- R43 (b) says nothing at index 0. -/
theorem inv_prevClk_zero {s : State} (h : s.regs.pos = 0) (x : Sample) (h0 : 0 < s.regs.pos)
    (_ : s.mem.read (s.regs.pos - 1) = some x) : s.regs.prevClk = x.clk := by omega

theorem test_witness_waiting_inv : waiting.Inv := by
  constructor
  case prevClk => exact inv_prevClk_zero rfl
  all_goals decide

/-- StepKeepsInvariants, CursorPortsAreExact, AbsentValuesAreNotReadable: the invariants hold in a
waiting state, and a step from it completes. -/
theorem test_witness_invariants : waiting.Inv ∧ ∃ t, step waiting = .next t := by
  exact ⟨test_witness_waiting_inv, _, rfl⟩

/-- `first_ts` and the frame registers, present. -/
theorem test_witness_AbsentValuesAreNotReadable :
    (at_ capE { rawRegs 1 with firstTs := some 100, firstTsValid := true }).Inv ∧ waiting.Inv := by
  refine ⟨?_, test_witness_waiting_inv⟩
  constructor
  case prevClk => exact inv_prevClk_zero rfl
  all_goals decide

/-- CursorNeverDecreases and MarksAreSticky: a completed step that is no reset. -/
theorem test_witness_noReset : let s := { at_ capE { decRegs with cmdErr := true, violSeen := true } with
      inbox := [.command 0x00] }
    (∃ t, step s = .next t) ∧ ∀ w c rest, s.inbox ≠ .reset w c :: rest := by
  refine ⟨⟨_, rfl⟩, ?_⟩
  intro w c rest h
  cases h

/-- The three clauses of ActivitiesEnd: below N and at N; a raw read; a decode. -/
theorem test_witness_ActivitiesEnd :
    (∀ p ∈ [0, 7, 8], let s := at_ capE { decRegs with pos := p }
      s.regs.pos ≤ s.mem.size ∧ s.regs.examining = true) ∧
    (at_ capE (rawRegs 4)).regs.status = .raw ∧
    (at_ capE decRegs).regs.status = .decode ∧ (at_ capE decRegs).regs.frValid = false := by decide

theorem test_witness_PulledDecodeIsDecodeAll : let s := at_ capE decRegs
    s.regs.status = .decode ∧ s.regs.frValid = false ∧ s.regs.field = .pre ∧ s.regs.ones = 0 ∧
      2 * (s.mem.size - s.regs.pos) + 1 ≤ 17 := by decide

set_option maxRecDepth 8192 in
/-- V33's frame, then V40's, at two samples per half-cycle. -/
theorem test_witness_CapturedFramesRoundTrip :
    let fs : List FrameSpec := [⟨16, 1, 31, 31, 2, 0xFFFF⟩, ⟨17, 1, 1, 2, 2, 0x1234⟩]
    (∀ f ∈ fs, 16 ≤ f.p) ∧ 1 ≤ 2 ∧
      2 * (trace (fs.flatMap FrameSpec.bits) 2 1000 5).size + 1 ≤ 777 := by decide

theorem test_witness_OversamplingInvariance :
    (Sample.mk 101 false false).clk = (Sample.mk 100 false true).clk := rfl

/-- A capture of one record and one with a second record of the same level yield the same bits. -/
theorem test_witness_DecodeDependsOnYieldedBitsOnly :
    yieldedBits false none (one true).records =
        yieldedBits false none [⟨7, false, true⟩, ⟨8, false, false⟩] ∧
      2 * (one true).size + 1 ≤ 3 ∧ 2 * (Memory.mk [⟨7, false, true⟩, ⟨8, false, false⟩]).size + 1 ≤ 5 := by
  decide

/-- Each thing that makes a session unclean, and a clean end, before a step that completes and is no
reset. -/
theorem test_witness_UncleanSessionStaysUnclean :
    ∀ r ∈ [{ decRegs with status := .doneTrunc }, { decRegs with status := .errPreamble },
        { decRegs with status := .errStart }, { decRegs with status := .errMode },
        { decRegs with cmdErr := true }, { decRegs with violSeen := true },
        { decRegs with status := .doneClean }],
      let s := { at_ capE r with inbox := [HostInput.command 0x00] }
      ((∃ t, step s = .next t) ∧ ∀ w c rest, s.inbox ≠ .reset w c :: rest) ∧
        (s.cleanSession = false ∨ s.endedClean = true) := by
  intro r hr
  refine ⟨⟨⟨_, rfl⟩, fun w c rest h => by cases h⟩, ?_⟩
  revert r
  decide

end Sys2Proof.Tests
end

/-! # The session state (10_state.md): the invariants of R43, the cursor, reset and the ports -/

namespace Sys2Proof.Machine

/-! ## What one step can do -/

/-- The state after a tick with a command word on the port: what NOP gives, what a refused word gives
(R202, R203), or what the accepted command gives, with the condition of its acceptance. -/
inductive CommandTick (s : State) : State → Prop
  | nop : CommandTick s s.runTick
  | refused : CommandTick s s.refuseCommand
  | setph (p : Bool) (idle : s.regs.status = .idle) :
      CommandTick s (s.withRegs { s.regs with phase := p })
  | rdbits (c : BitVec 5) (idle : s.regs.status = .idle) (count : c.toNat ≤ 16) :
      CommandTick s (s.withRegs (s.regs.beginRaw c))
  | start (b r : Bool) (idle : s.regs.status = .idle) (phase : s.regs.phase = false) :
      CommandTick s (s.withRegs (s.regs.beginDecode b r))
  | pop (decode : s.regs.status = .decode) (frame : s.regs.frValid = true) :
      CommandTick s s.popFrame

theorem CommandTick.of_readBitsCommand (c : BitVec 5) (s : State) :
    CommandTick s (s.readBitsCommand c) := by
  unfold State.readBitsCommand
  split
  next h => exact .rdbits c h.1 h.2
  next => exact .refused

/-- What a command row's instruction can give. -/
theorem exec_command_cases {i : Instr} {s t : State} (hi : Claims.isCommand i)
    (h : exec i s = .next t) : CommandTick s t := by
  cases i with
  | frameOp0 | frameOp1 | frameOp2 | frameOp3 => exact hi.elim
  | nop => cases h; exact .nop
  | rdbits | rdbits16 => cases h; exact .of_readBitsCommand _ s
  | setph p =>
    simp only [exec, execSetph] at h
    split at h <;> cases h
    next idle => exact .setph p idle
    next => exact .refused
  | start b r =>
    simp only [exec, execStart] at h
    split at h <;> cases h
    next acc => exact .start b r acc.1 acc.2
    next => exact .refused
  | pop =>
    simp only [exec, execPop] at h
    split at h <;> cases h
    next acc => exact .pop acc.1 acc.2
    next => exact .refused

/-- A frame row delivers the bits of its body (log 5). -/
theorem exec_frame_eq_deliverAll {i : Instr} (hi : ¬ Claims.isCommand i) :
    ∃ bits, ∀ s, exec i s = .next (s.deliverAll bits) := by
  cases i with
  | frameOp0 phy reg ta data => exact ⟨bodyBits 0b00#2 phy reg ta data, fun _ => rfl⟩
  | frameOp1 phy reg ta data => exact ⟨bodyBits 0b01#2 phy reg ta data, fun _ => rfl⟩
  | frameOp2 phy reg ta data => exact ⟨bodyBits 0b10#2 phy reg ta data, fun _ => rfl⟩
  | frameOp3 phy reg ta data => exact ⟨bodyBits 0b11#2 phy reg ta data, fun _ => rfl⟩
  | _ => exact absurd trivial hi

/-- R89: no command word stands for a frame row. -/
theorem isCommand_of_decodeCommand {w : CommandWord} {i : Instr} (h : decodeCommand w = .ok i) :
    Claims.isCommand i := by
  simp only [decodeCommand, decodeRdbits] at h
  (repeat' split at h) <;> cases h <;> trivial

/-- What was fetched from the command port, run. -/
theorem runFetched_fetchCommand_cases {w : CommandWord} {s t : State}
    (h : s.runFetched (fetchCommand w) = .next t) : CommandTick s t := by
  simp only [fetchCommand] at h
  split at h
  next i hi => exact exec_command_cases (isCommand_of_decodeCommand hi) h
  next => cases h; exact .refused

/-- The input `body` runs the frame at the cursor or, where none stands there, NOP (log 5). -/
theorem State.fetchBody_cases (s : State) : ∃ i, s.fetchBody = .run i := by
  unfold State.fetchBody
  split
  · exact ⟨_, rfl⟩
  · split <;> exact ⟨_, rfl⟩

/-- The state after one step: a reset tick (R260), a tick with a command word or none (log 4), or the
bits of a frame body (log 5). -/
inductive StepTick (s t : State) : Prop
  | reset (w : CommandWord) (c : Option Memory) (rest : List HostInput)
      (input : s.inbox = .reset w c :: rest) (tick : s.takeInput.resetTick c = .next t)
  | command (tick : CommandTick s.takeInput t)
  | body (rest : List HostInput) (input : s.inbox = .body :: rest) (bits : List Bool)
      (tick : t = s.takeInput.deliverAll bits)

theorem step_cases {s t : State} (h : step s = .next t) : StepTick s t := by
  simp only [step, State.fetch] at h
  split at h
  next => cases h; exact .command .nop
  next w c rest input => exact .reset w c rest input h
  next w rest input => exact .command (runFetched_fetchCommand_cases h)
  next rest input =>
    obtain ⟨i, hi⟩ := s.fetchBody_cases
    rw [hi] at h
    by_cases hc : Claims.isCommand i
    · exact .command (exec_command_cases hc h)
    · obtain ⟨bits, hbits⟩ := exec_frame_eq_deliverAll hc
      cases (hbits _).symm.trans h
      exact .body rest input bits rfl

/-! ## The cursor (R21, R43 (a)) -/

/-- One `Advance` moves the cursor by one sample or leaves it at the end of the capture (R111). -/
theorem State.advanceOn_pos (o : Option Sample) (s : State) :
    (s.advanceOn o).regs.pos = s.regs.pos + o.toList.length := by
  cases o with
  | none => exact s.regs.endOfStream_same.pos
  | some x =>
    cases hy : s.regs.yields x with
    | true => rw [State.advanceOn_yield hy]; exact (Regs.acceptBit_same _ _ _).pos
    | false => rw [State.advanceOn_skip hy]; rfl

theorem State.le_pos_advanceOn (o : Option Sample) (s : State) :
    s.regs.pos ≤ (s.advanceOn o).regs.pos := by
  rw [State.advanceOn_pos]; exact Nat.le_add_right _ _

theorem State.runTick_pos (s : State) :
    s.regs.pos ≤ s.runTick.regs.pos ∧ s.runTick.regs.pos ≤ s.regs.pos + 1 := by
  cases he : s.regs.examining with
  | true =>
    rw [State.runTick_of_examining he, State.advance, State.advanceOn_pos]
    cases s.mem.read s.regs.pos <;> simp
  | false => simp [State.runTick_of_not_examining he]

theorem Regs.beginRaw_cursor (c : BitVec 5) (r : Regs) :
    (r.beginRaw c).pos = r.pos ∧ (r.beginRaw c).prevClk = r.prevClk := by
  unfold Regs.beginRaw
  split <;> exact ⟨rfl, rfl⟩

theorem Regs.beginDecode_cursor (b k : Bool) (r : Regs) :
    (r.beginDecode b k).pos = r.pos ∧ (r.beginDecode b k).prevClk = r.prevClk := by
  cases b <;> exact ⟨rfl, rfl⟩

theorem CommandTick.pos {s t : State} (h : CommandTick s t) :
    s.regs.pos ≤ t.regs.pos ∧ t.regs.pos ≤ s.regs.pos + 1 := by
  cases h with
  | nop => exact s.runTick_pos
  | refused => exact State.runTick_pos { s with regs := s.regs.markCmdErr }
  | setph | pop => simp
  | rdbits c => simp [Regs.beginRaw_cursor]
  | start b r => simp [Regs.beginDecode_cursor]

theorem State.le_pos_takeBit (b : Bool) (xs : List Sample) (s : State) :
    s.regs.pos ≤ (s.takeBit b xs).regs.pos := by
  induction xs generalizing s with
  | nil => exact s.le_pos_advanceOn none
  | cons x xs ih =>
    simp only [State.takeBit]
    split
    · exact s.le_pos_advanceOn _
    · exact (s.le_pos_advanceOn _).trans (ih _)

theorem State.le_pos_deliver (s : State) (b : Bool) : s.regs.pos ≤ (s.deliver b).regs.pos := by
  unfold State.deliver
  split
  · exact State.le_pos_takeBit b _ s
  · rfl

theorem State.le_pos_deliverAll (bits : List Bool) (s : State) :
    s.regs.pos ≤ (s.deliverAll bits).regs.pos := by
  induction bits generalizing s with
  | nil => rfl
  | cons b bs ih => exact (s.le_pos_deliver b).trans (ih _)

/-- Settles O43, on what one step can do: a command tick holds at most one `Advance`, and a frame body
is a chain of them. -/
theorem cursorNeverDecreases : Obligations.CursorNeverDecreases := by
  intro s t h hreset
  cases step_cases h with
  | reset w c rest input => exact absurd input (hreset w c rest)
  | command tick => exact ⟨tick.pos.1, fun _ _ _ => tick.pos.2⟩
  | body rest input bits tick =>
    subst tick
    refine ⟨State.le_pos_deliverAll bits s.takeInput, fun w rest' hw => ?_⟩
    cases hw.symm.trans input

/-! ## The invariants on registers (R43) -/

/-- The invariants of `State.Inv` that speak of registers alone. -/
structure Regs.Inv (r : Regs) : Prop where
  needLe : r.need.toNat ≤ 16
  onesLe : r.ones.toNat ≤ 16
  rawCntLe : r.rawCnt.toNat ≤ 16
  waiting : r.frValid = true →
    r.status = .decode ∧ r.field = .pre ∧ r.ones = 0 ∧ r.need = 0 ∧ r.shreg = 0
  rawBusy : r.status = .raw →
    1 ≤ r.need.toNat ∧ r.need.toNat ≤ r.rawCnt.toNat ∧ r.rawStatus = .none
  decoding : r.status = .decode → r.phase = false ∧ r.broadcom = true
  uncounted : (r.status = .decode ∨ r.status.terminal = true) →
    (r.field = .pre ∨ r.field = .st1) → r.need = 0
  counted : r.status = .decode → r.field ≠ .pre → r.field ≠ .st1 →
    1 ≤ r.need.toNat ∧ r.need.toNat ≤ r.field.width.toNat
  firstTs : r.firstTs.isSome = r.firstTsValid
  waitingTs : r.frValid = true → r.frTs.isSome = true
  pastPreamble : r.status = .decode → r.field ≠ .pre → r.ones = 16 ∧ r.frTs.isSome = true

/-- R43 (a) and (b): the cursor lies within the capture, and `prev_clk` is the level before it. -/
structure Regs.AtCursor (m : Memory) (r : Regs) : Prop where
  posLe : r.pos ≤ m.size
  prevClk : ∀ x, 0 < r.pos → m.read (r.pos - 1) = some x → r.prevClk = x.clk

/-- `State.Inv` in three parts: R6, the cursor and the registers. -/
theorem State.inv_iff (s : State) :
    s.Inv ↔ s.mem.wf = true ∧ s.regs.AtCursor s.mem ∧ s.regs.Inv := by
  constructor
  · intro h
    exact ⟨h.memWf, ⟨h.posLe, h.prevClk⟩, { h with }⟩
  · rintro ⟨hm, hc, hr⟩
    exact { hc, hr with memWf := hm }

/-- `need` counts down without wrapping while a bit is left (R117, R143). -/
theorem toNat_pred_of_ne_zero {n : BitVec 5} (h1 : 1 ≤ n.toNat) (h : n - 1 ≠ 0) :
    1 ≤ (n - 1).toNat ∧ (n - 1).toNat ≤ n.toNat := by
  bv_omega

/-- R171: the preamble count saturates at 16. -/
theorem toNat_saturating_succ_le (n : BitVec 5) :
    (if Config.preambleMin ≤ n.toNat then 16 else n + 1).toNat ≤ 16 := by
  split
  next => decide
  next h =>
    have hlt : n.toNat < 16 := Nat.lt_of_not_le h
    bv_omega

theorem FrameField.width_le (f : FrameField) : f.width.toNat ≤ 16 := by cases f <;> decide

theorem FrameField.one_le_width {f : FrameField} (hpre : f ≠ .pre) (hst1 : f ≠ .st1) :
    1 ≤ f.width.toNat := by
  cases f
  case pre => exact absurd rfl hpre
  case st1 => exact absurd rfl hst1
  all_goals decide

/-- R117: whatever it held, `first_ts` holds a value after a raw bit. -/
theorem Regs.latchFirstTs_eq (t : Ts) (r : Regs) :
    r.latchFirstTs t =
      { r with firstTs := if r.firstTsValid then r.firstTs else some t, firstTsValid := true } := by
  unfold Regs.latchFirstTs
  split
  next hvalid => simp [← hvalid]
  next => rfl

namespace Regs.Inv

variable {r : Regs}

theorem reset : Regs.reset.Inv := by constructor <;> decide

/-- R43 (d): a frame waits in ST_DECODE only. -/
theorem frValid_eq_false (h : r.Inv) (hs : r.status ≠ .decode) : r.frValid = false :=
  Bool.eq_false_iff.mpr fun hv => hs (h.waiting hv).1

/-- R145: a sample is examined only while no frame waits. -/
theorem frValid_of_examining (h : r.Inv) (he : r.examining = true) : r.frValid = false := by
  by_cases hs : r.status = .decode
  · simpa [Regs.examining, hs] using he
  · exact h.frValid_eq_false hs

theorem examine (h : r.Inv) (x : Sample) : (r.examine x).Inv := { h with }

theorem markCmdErr (h : r.Inv) : r.markCmdErr.Inv := { h with }

/-! ### Commands -/

theorem setPhase (h : r.Inv) (idle : r.status = .idle) (p : Bool) : { r with phase := p }.Inv :=
  { h with decoding := by simp [idle] }

theorem clearFrValid (h : r.Inv) : r.clearFrValid.Inv :=
  { h with waiting := by simp, waitingTs := by simp }

theorem beginRaw (h : r.Inv) (idle : r.status = .idle) {c : BitVec 5} (hc : c.toNat ≤ 16) :
    (r.beginRaw c).Inv := by
  have hv : r.frValid = false := h.frValid_eq_false (by simp [idle])
  have hcleared : { r.clearFirstTs with rawCnt := c, need := c, shreg := 0 }.Inv :=
    { h with
      needLe := hc, rawCntLe := hc, firstTs := rfl
      waiting := by simp [hv]
      rawBusy := by simp [idle]
      uncounted := by simp [idle, Status.terminal]
      counted := by simp [idle] }
  unfold Regs.beginRaw
  split
  next => exact { hcleared with rawBusy := by simp [idle] }
  next hne =>
    have hpos : 1 ≤ c.toNat := Nat.one_le_iff_ne_zero.mpr fun h0 => hne (BitVec.eq_of_toNat_eq h0)
    exact { hcleared with
      waiting := by simp [hv]
      rawBusy := fun _ => ⟨hpos, le_rfl, rfl⟩
      decoding := nofun
      uncounted := by simp [Status.terminal]
      counted := nofun
      pastPreamble := nofun }

/-- R141's writes, with the status the operand calls for. -/
theorem restart (h : r.Inv) (b k : Bool) {st : Status} (hr : st ≠ .raw)
    (hd : st = .decode → r.phase = false ∧ b = true) :
    { r.clearFrValid with
      broadcom := b, resync := k, field := .pre, ones := 0, need := 0, shreg := 0, status := st }.Inv :=
  { h with
    needLe := Nat.zero_le _, onesLe := Nat.zero_le _
    waiting := by simp
    rawBusy := fun e => absurd e hr
    decoding := hd
    uncounted := fun _ _ => rfl
    counted := fun _ hpre => absurd rfl hpre
    waitingTs := by simp
    pastPreamble := fun _ hpre => absurd rfl hpre }

theorem beginDecode (h : r.Inv) (hp : r.phase = false) (b k : Bool) : (r.beginDecode b k).Inv := by
  cases b with
  | true => exact h.restart true k (by decide) fun _ => ⟨hp, rfl⟩
  | false => exact h.restart false k (st := .errMode) (by decide) fun e => absurd e (by decide)

/-! ### Conditions -/

/-- A status that examines nothing asks only for R43 (g), where it is terminal. -/
theorem setStatus (h : r.Inv) (hv : r.frValid = false) {st : Status} (hr : st ≠ .raw)
    (hd : st ≠ .decode)
    (hu : st.terminal = true → (r.field = .pre ∨ r.field = .st1) → r.need = 0) :
    { r with status := st }.Inv :=
  { h with
    waiting := by simp [hv]
    rawBusy := fun e => absurd e hr
    decoding := fun e => absurd e hd
    uncounted := fun e => hu (e.resolve_left hd)
    counted := fun e => absurd e hd
    pastPreamble := fun e => absurd e hd }

/-- A decode ends in a terminal status with its other registers as they are (R43 (g), R146, R183). -/
theorem endDecode (h : r.Inv) (hs : r.status = .decode) (hv : r.frValid = false) {st : Status}
    (hst : st.terminal = true) : { r with status := st }.Inv :=
  h.setStatus hv (by rintro rfl; cases hst) (by rintro rfl; cases hst)
    fun _ => h.uncounted (.inl hs)

theorem endOfStream (h : r.Inv) (hv : r.frValid = false) : r.endOfStream.Inv := by
  unfold Regs.endOfStream
  split
  next hs =>
    have hidle : { r with status := .idle }.Inv := h.setStatus hv (by decide) (by decide) nofun
    exact { hidle with rawBusy := nofun }
  next hs => split <;> exact h.endDecode hs hv rfl
  next => exact h

/-- R183 in the two fields that can raise a violation. -/
theorem violation (h : r.Inv) (hs : r.status = .decode) (hv : r.frValid = false)
    (hf : r.field = .pre ∨ r.field = .st1) (k : ViolKind) : (r.violation k).Inv := by
  unfold Regs.violation
  split
  · exact { h with
      onesLe := Nat.zero_le _
      waiting := by simp [hv]
      uncounted := fun _ _ => h.uncounted (.inl hs) hf
      counted := fun _ hpre => absurd rfl hpre
      pastPreamble := fun _ hpre => absurd rfl hpre }
  · cases k <;> exact h.endDecode hs hv rfl

/-! ### Accepted bits -/

/-- R117: a raw bit that is the last ends the read, any other leaves at least one to come. -/
theorem acceptRaw (h : r.Inv) (hs : r.status = .raw) (b : Bool) (t : Ts) : (r.acceptRaw b t).Inv := by
  have hv : r.frValid = false := h.frValid_eq_false (by simp [hs])
  obtain ⟨hneed, hcnt, hraw⟩ := h.rawBusy hs
  have hts : (if r.firstTsValid then r.firstTs else some t).isSome = true := by
    split
    next hvalid => rw [h.firstTs, hvalid]
    next => rfl
  simp only [Regs.acceptRaw, Regs.latchFirstTs_eq]
  split
  next hlast =>
    exact { h with
      needLe := hlast ▸ Nat.zero_le _
      firstTs := hts
      waiting := by simp [hv]
      rawBusy := nofun
      decoding := nofun
      uncounted := by simp [Status.terminal]
      counted := nofun
      pastPreamble := nofun }
  next hmore =>
    obtain ⟨hpos, hle⟩ := toNat_pred_of_ne_zero hneed hmore
    exact { h with
      needLe := hle.trans h.needLe
      firstTs := hts
      waiting := by simp [hv]
      rawBusy := fun _ => ⟨hpos, hle.trans hcnt, hraw⟩
      uncounted := by simp [hs, Status.terminal]
      counted := by simp [hs] }

/-- R171 to R173. -/
theorem acceptPre (h : r.Inv) (hs : r.status = .decode) (hv : r.frValid = false)
    (hf : r.field = .pre) (b : Bool) (t : Ts) : (r.acceptPre b t).Inv := by
  unfold Regs.acceptPre
  split
  · exact { h with
      onesLe := toNat_saturating_succ_le r.ones
      waiting := by simp [hv]
      pastPreamble := fun _ hpre => absurd hf hpre }
  · split
    next hones =>
      have h16 : r.ones = 16 := BitVec.eq_of_toNat_eq (Nat.le_antisymm h.onesLe hones)
      exact { h with
        waiting := by simp [hv]
        uncounted := fun _ _ => h.uncounted (.inl hs) (.inl hf)
        counted := fun _ _ hst1 => absurd rfl hst1
        waitingTs := fun _ => rfl
        pastPreamble := fun _ _ => ⟨h16, rfl⟩ }
    next => exact h.violation hs hv (.inl hf) _

/-- R144: a counted field is entered past the preamble, with its whole width to come. -/
theorem enterField (h : r.Inv) (hs : r.status = .decode) (hv : r.frValid = false)
    (hpast : r.ones = 16 ∧ r.frTs.isSome = true) {f : FrameField} (hpre : f ≠ .pre)
    (hst1 : f ≠ .st1) : (r.enterField f).Inv :=
  { h with
    needLe := f.width_le
    waiting := by simp [hv]
    rawBusy := by simp [hs]
    uncounted := fun _ hf => (hf.elim hpre hst1).elim
    counted := fun _ _ _ => ⟨FrameField.one_le_width hpre hst1, le_rfl⟩
    pastPreamble := fun _ _ => hpast }

/-- R174 and R175. -/
theorem acceptSt1 (h : r.Inv) (hs : r.status = .decode) (hv : r.frValid = false)
    (hf : r.field = .st1) (b : Bool) : (r.acceptSt1 b).Inv := by
  unfold Regs.acceptSt1
  split
  · exact h.enterField hs hv (h.pastPreamble hs (by simp [hf])) (by decide) (by decide)
  · exact h.violation hs hv (.inr hf) _

/-- R181: a frame that waits has its timestamp and leaves the search cleared. -/
theorem emitFrame (h : r.Inv) (hs : r.status = .decode) (hts : r.frTs.isSome = true)
    (v : BitVec 16) : (r.emitFrame v).Inv :=
  { h with
    needLe := Nat.zero_le _, onesLe := Nat.zero_le _
    waiting := fun _ => ⟨hs, rfl, rfl, rfl, rfl⟩
    rawBusy := by simp [hs]
    uncounted := fun _ _ => rfl
    counted := fun _ hpre => absurd rfl hpre
    waitingTs := fun _ => hts
    pastPreamble := fun _ hpre => absurd rfl hpre }

/-- R176 to R180. -/
theorem completeField (h : r.Inv) (hs : r.status = .decode) (hv : r.frValid = false)
    (hpast : r.ones = 16 ∧ r.frTs.isSome = true) (v : BitVec 16) : (r.completeField v).Inv := by
  unfold Regs.completeField
  cases r.field with
  | pre | st1 => exact h
  | op =>
    have hop : { r with frOp := v.setWidth 2 }.Inv := { h with }
    exact hop.enterField hs hv hpast (by decide) (by decide)
  | phy =>
    have hphy : { r with frPhy := v.setWidth 5 }.Inv := { h with }
    exact hphy.enterField hs hv hpast (by decide) (by decide)
  | reg =>
    have hreg : { r with frReg := v.setWidth 5 }.Inv := { h with }
    exact hreg.enterField hs hv hpast (by decide) (by decide)
  | ta => exact h.enterField hs hv hpast (by decide) (by decide)
  | data => exact h.emitFrame hs hpast.2 v

/-- R143: the last bit of a field completes it, any other leaves at least one to come. -/
theorem acceptCounted (h : r.Inv) (hs : r.status = .decode) (hv : r.frValid = false)
    (hpre : r.field ≠ .pre) (hst1 : r.field ≠ .st1) (b : Bool) : (r.acceptCounted b).Inv := by
  unfold Regs.acceptCounted
  dsimp only
  split
  next => exact h.completeField hs hv (h.pastPreamble hs hpre) _
  next hmore =>
    obtain ⟨hneed, hwidth⟩ := h.counted hs hpre hst1
    obtain ⟨hpos, hle⟩ := toNat_pred_of_ne_zero hneed hmore
    exact { h with
      needLe := hle.trans h.needLe
      waiting := by simp [hv]
      rawBusy := by simp [hs]
      uncounted := fun _ hf => (hf.elim hpre hst1).elim
      counted := fun _ _ _ => ⟨hpos, hle.trans hwidth⟩ }

theorem acceptDecode (h : r.Inv) (hs : r.status = .decode) (hv : r.frValid = false) (b : Bool)
    (t : Ts) : (r.acceptDecode b t).Inv := by
  unfold Regs.acceptDecode
  cases hf : r.field with
  | pre => exact h.acceptPre hs hv hf b t
  | st1 => exact h.acceptSt1 hs hv hf b
  | _ => exact h.acceptCounted hs hv (by simp [hf]) (by simp [hf]) b

theorem acceptBit (h : r.Inv) (hv : r.frValid = false) (b : Bool) (t : Ts) :
    (r.acceptBit b t).Inv := by
  unfold Regs.acceptBit
  split
  next hs => exact h.acceptRaw hs b t
  next hs => exact h.acceptDecode hs hv b t
  next => exact h

end Regs.Inv

/-! ## The invariants on the state (R43) -/

/-- Only the cursor and `prev_clk` count. -/
theorem Regs.AtCursor.congr {m : Memory} {r r' : Regs} (h : r.AtCursor m) (hpos : r'.pos = r.pos)
    (hclk : r'.prevClk = r.prevClk) : r'.AtCursor m :=
  ⟨hpos ▸ h.posLe, fun x h0 hx => hclk.trans (h.prevClk x (hpos ▸ h0) (hpos ▸ hx))⟩

theorem Regs.AtCursor.reset (m : Memory) : Regs.reset.AtCursor m :=
  ⟨Nat.zero_le _, fun _ h0 => absurd h0 (Nat.lt_irrefl 0)⟩

/-- R113: the cursor passes the record it stands at, whose level becomes `prev_clk`. -/
theorem Regs.AtCursor.examine {m : Memory} {r : Regs} {x y : Sample} (hy : m.read r.pos = some y)
    (hclk : y.clk = x.clk) : (r.examine x).AtCursor m := by
  refine ⟨Memory.lt_size_of_read hy, fun z _ hz => ?_⟩
  obtain rfl : y = z := Option.some.inj (hy.symm.trans hz)
  exact hclk.symm

/-- The first record ahead is `S[pos]`, and the others are ahead once the cursor has passed it. -/
theorem State.read_of_ahead_eq_cons {s : State} {x : Sample} {xs : List Sample}
    (h : s.ahead = x :: xs) :
    s.mem.read s.regs.pos = some x ∧ (s.withRegs (s.regs.examine x)).ahead = xs := by
  cases hread : s.mem.read s.regs.pos with
  | none => rw [State.ahead_eq_nil hread] at h; cases h
  | some y =>
    rw [State.ahead_eq_cons hread] at h
    cases h
    exact ⟨rfl, rfl⟩

namespace State.Inv

variable {s : State}

theorem regsInv (h : s.Inv) : s.regs.Inv := (s.inv_iff.mp h).2.2

theorem atCursor (h : s.Inv) : s.regs.AtCursor s.mem := (s.inv_iff.mp h).2.1

/-- The invariants read the registers and the sample memory alone. -/
theorem of_regs {t : State} (h : s.Inv) (hm : t.mem = s.mem) (hc : t.regs.AtCursor s.mem)
    (hr : t.regs.Inv) : t.Inv :=
  t.inv_iff.mpr ⟨hm ▸ h.memWf, hm ▸ hc, hr⟩

theorem congr {t : State} (h : s.Inv) (hm : t.mem = s.mem) (hr : t.regs = s.regs) : t.Inv :=
  h.of_regs hm (hr ▸ h.atCursor) (hr ▸ h.regsInv)

/-- A tick that moves no cursor keeps the invariants where its registers do. -/
theorem withRegs (h : s.Inv) {r : Regs} (hr : r.Inv)
    (hcursor : r.pos = s.regs.pos ∧ r.prevClk = s.regs.prevClk) : (s.withRegs r).Inv :=
  h.of_regs rfl (h.atCursor.congr hcursor.1 hcursor.2) hr

/-- R111, on a record of the level `S[pos]` has, whatever its data. -/
theorem advanceOn (h : s.Inv) (hv : s.regs.frValid = false) {o : Option Sample}
    (ho : ∀ x, o = some x → ∃ y, s.mem.read s.regs.pos = some y ∧ y.clk = x.clk) : (s.advanceOn o).Inv := by
  cases o with
  | none =>
    have hsame := s.regs.endOfStream_same
    exact h.withRegs (h.regsInv.endOfStream hv) ⟨hsame.pos, hsame.prevClk⟩
  | some x =>
    obtain ⟨y, hy, hclk⟩ := ho x rfl
    have hc : (s.regs.examine x).AtCursor s.mem := .examine hy hclk
    have hr : (s.regs.examine x).Inv := h.regsInv.examine x
    cases hyield : s.regs.yields x with
    | true =>
      rw [State.advanceOn_yield hyield]
      have hsame := (s.regs.examine x).acceptBit_same x.dat x.ts
      exact h.of_regs rfl (hc.congr hsame.pos hsame.prevClk) (hr.acceptBit hv x.dat x.ts)
    | false =>
      rw [State.advanceOn_skip hyield]
      exact h.of_regs rfl hc hr

theorem quiet (h : s.Inv) : s.quiet.Inv := h.congr rfl rfl

theorem runTick (h : s.Inv) : s.runTick.Inv := by
  cases he : s.regs.examining with
  | true =>
    rw [State.runTick_of_examining he]
    exact h.advanceOn (h.regsInv.frValid_of_examining he) fun x hx => ⟨x, hx, rfl⟩
  | false =>
    rw [State.runTick_of_not_examining he]
    exact h.quiet

theorem refuseCommand (h : s.Inv) : s.refuseCommand.Inv := by
  have hmark : { s with regs := s.regs.markCmdErr }.Inv :=
    h.of_regs rfl (h.atCursor.congr rfl rfl) h.regsInv.markCmdErr
  exact hmark.runTick

theorem popFrame (h : s.Inv) : s.popFrame.Inv :=
  h.of_regs rfl (h.atCursor.congr rfl rfl) h.regsInv.clearFrValid

theorem commandTick (h : s.Inv) {t : State} (tick : CommandTick s t) : t.Inv := by
  cases tick with
  | nop => exact h.runTick
  | refused => exact h.refuseCommand
  | setph p idle => exact h.withRegs (h.regsInv.setPhase idle p) ⟨rfl, rfl⟩
  | rdbits c idle count => exact h.withRegs (h.regsInv.beginRaw idle count) (s.regs.beginRaw_cursor c)
  | start b r idle phase =>
    exact h.withRegs (h.regsInv.beginDecode phase b r) (s.regs.beginDecode_cursor b r)
  | pop => exact h.popFrame

/-- `xs` are the records from the cursor on; each skipped one moves the cursor past it. -/
theorem takeBit (b : Bool) {xs : List Sample} (h : s.Inv) (hv : s.regs.frValid = false)
    (hxs : s.ahead = xs) : (s.takeBit b xs).Inv := by
  induction xs generalizing s with
  | nil => exact h.advanceOn hv nofun
  | cons x xs ih =>
    obtain ⟨hread, hrest⟩ := State.read_of_ahead_eq_cons hxs
    simp only [State.takeBit]
    split
    next => exact h.advanceOn hv (by rintro _ ⟨⟩; exact ⟨x, hread, rfl⟩)
    next hyield =>
      have hskip := h.advanceOn hv (o := some x) (by rintro _ ⟨⟩; exact ⟨x, hread, rfl⟩)
      rw [State.advanceOn_skip (by simpa using hyield)] at hskip ⊢
      exact ih hskip hv hrest

theorem deliver (h : s.Inv) (b : Bool) : (s.deliver b).Inv := by
  unfold State.deliver
  split
  next he => exact h.takeBit b (h.regsInv.frValid_of_examining he) rfl
  next => exact h.quiet

theorem deliverAll (h : s.Inv) (bits : List Bool) : (s.deliverAll bits).Inv := by
  induction bits generalizing s with
  | nil => exact h
  | cons b bs ih => exact ih (h.deliver b)

theorem resetTick (h : s.Inv) {c : Option Memory} {t : State} (tick : s.resetTick c = .next t) :
    t.Inv := by
  obtain ⟨hregs, -⟩ := State.resetTick_cases tick
  exact t.inv_iff.mpr
    ⟨State.resetTick_keeps_wf tick h.memWf, hregs ▸ .reset _, hregs ▸ .reset⟩

end State.Inv

/-- Settles O41: each kind of step keeps the register invariants, R6 and the place of the cursor. -/
theorem stepKeepsInvariants : Obligations.StepKeepsInvariants := by
  intro s t h hstep
  have hinput : s.takeInput.Inv := h.congr rfl rfl
  cases step_cases hstep with
  | reset w c rest input tick => exact hinput.resetTick tick
  | command tick => exact hinput.commandTick tick
  | body rest input bits tick => exact tick ▸ hinput.deliverAll bits

/-- Settles O42, in the same three parts. -/
theorem resetMeetsInvariants : Obligations.ResetMeetsInvariants :=
  State.reset.inv_iff.mpr ⟨State.reset_mem_wf, .reset _, .reset⟩

/-! ## Reset and the ports -/

/-- Settles O1: the step fetches the reset, whose registers are those of R41. -/
theorem resetTickGivesResetState : Obligations.ResetTickGivesResetState := by
  intro s w rest input
  simp only [step, State.fetch, State.takeInput, input]
  rfl

/-- A number up to N fits the AW bits of a port (R6). -/
theorem Memory.toNat_port {m : Memory} (hm : m.wf = true) {n : Nat} (hn : n ≤ m.size) :
    (BitVec.ofNat Config.aw n).toNat = n := by
  have hsize : m.size ≤ 2 ^ 32 - 1 := m.wf_iff.mp hm
  exact Nat.mod_eq_of_lt (show n < 2 ^ 32 by omega)

/-- Settles O51: R6 bounds N, and R43 (a) the cursor by N. -/
theorem cursorPortsAreExact : Obligations.CursorPortsAreExact := fun _ h =>
  ⟨Memory.toNat_port h.memWf h.posLe, Memory.toNat_port h.memWf h.posLe,
    Memory.toNat_port h.memWf le_rfl⟩

theorem State.readFirstTs_of_absent {s : State} (h : s.regs.firstTsValid = false) :
    s.ports.firstTs = none ∧ s.readFirstTs = .error .firstTsAbsent := by
  simp [State.readFirstTs, State.ports, h]

theorem State.readFirstTs_of_present {s : State} {t : Ts} (h : s.regs.firstTsValid = true)
    (ht : s.regs.firstTs = some t) : s.readFirstTs = .ok t := by
  simp [State.readFirstTs, State.ports, h, ht]

theorem State.readFrame_of_absent {s : State} (h : s.regs.frValid = false) :
    s.ports.frame = none ∧ s.readFrame = .error .frameAbsent := by
  simp [State.readFrame, State.ports, h]

theorem State.readFrame_of_waiting {s : State} (h : s.regs.frValid = true) :
    s.readFrame = .ok s.regs.framePorts := by
  simp [State.readFrame, State.ports, h]

/-- Settles O52: under the invariants each flag is 1 exactly while its value is present. -/
theorem absentValuesAreNotReadable : Obligations.AbsentValuesAreNotReadable := by
  intro s h
  refine ⟨State.readFirstTs_of_absent, fun hvalid => ?_, State.readFrame_of_absent, fun hwait => ?_⟩
  · obtain ⟨t, ht⟩ := Option.isSome_iff_exists.mp (h.firstTs.trans hvalid)
    exact ⟨t, ht, State.readFirstTs_of_present hvalid ht⟩
  · exact ⟨_, State.readFrame_of_waiting hwait, rfl, h.waitingTs hwait, rfl, rfl, rfl, rfl⟩

end Sys2Proof.Machine

/-! # The sample memory (20_memory.md): what a session's steps leave of it, and the load in a reset -/

namespace Sys2Proof.Machine

/-! ## The sample memory in a session (R62, R67) -/

/-- A tick with a command word writes no sample and takes no further input. -/
theorem CommandTick.mem_inbox {s t : State} (h : CommandTick s t) :
    t.mem = s.mem ∧ t.inbox = s.inbox := by
  cases h with
  | nop =>
    obtain ⟨hmem, hinbox, -⟩ := s.runTick_keeps
    exact ⟨hmem, hinbox⟩
  | refused =>
    obtain ⟨hmem, hinbox, -⟩ := s.refuseCommand_keeps
    exact ⟨hmem, hinbox⟩
  | setph | rdbits | start | pop => exact ⟨rfl, rfl⟩

/-- R62: no instruction writes a sample, a command row by its tick and a frame row by the bits it
delivers. -/
theorem exec_mem_inbox {i : Instr} {s t : State} (h : exec i s = .next t) :
    t.mem = s.mem ∧ t.inbox = s.inbox := by
  by_cases hi : Claims.isCommand i
  · exact (exec_command_cases hi h).mem_inbox
  · obtain ⟨bits, hbits⟩ := exec_frame_eq_deliverAll hi
    cases (hbits s).symm.trans h
    obtain ⟨hmem, hinbox, -⟩ := s.deliverAll_keeps bits
    exact ⟨hmem, hinbox⟩

/-- Settles O44, on what one step can do: of its ticks only a reset that carries a capture changes the
memory, and the capture it carries is the memory after it. -/
theorem memoryFixedInSession : Obligations.MemoryFixedInSession := by
  refine ⟨fun i s t => exec_mem_inbox, fun s t h => ?_⟩
  cases step_cases h with
  | reset w c rest input tick =>
    obtain ⟨-, -, -, -, -, -, ⟨-, kept⟩ | ⟨rfl, -⟩⟩ := State.resetTick_cases tick
    · exact .inl kept
    · exact .inr ⟨w, rest, input⟩
  | command tick => exact .inl tick.mem_inbox.1
  | body rest input bits tick =>
    subst tick
    exact .inl (s.takeInput.deliverAll_keeps bits).1

/-! ## The load of a capture (R70, R262) -/

/-- R260: an input with `rst` = 1 is taken by the reset tick, whatever command word is on the port. -/
theorem step_of_reset {s : State} {w : CommandWord} {c : Option Memory} {rest : List HostInput}
    (input : s.inbox = .reset w c :: rest) : step s = { s with inbox := rest }.resetTick c := by
  simp only [step, State.fetch, State.takeInput, input]
  rfl

/-- Settles O2: the reset tick loads a capture R6 admits and refuses any other. -/
theorem resetWithCaptureStartsSession : Obligations.ResetWithCaptureStartsSession := by
  intro s w m rest input
  rw [step_of_reset input]
  exact ⟨fun h => State.resetTick_load h _, fun h => State.resetTick_too_long h _⟩

end Sys2Proof.Machine

/-! # The encodings (30_encoding.md): the two directions of the round trip and the command table -/

namespace Sys2Proof

open Machine

/-! ## Command words (R88) -/

@[simp] theorem CommandWord.opc_encodeCommand (opc : BitVec 3) (opd : BitVec 5) :
    CommandWord.opc (encodeCommand opc opd) = opc := by
  apply BitVec.eq_of_toNat_eq
  simp only [CommandWord.opc, encodeCommand, BitVec.extractLsb'_toNat, toNat_append_eq,
    Nat.shiftRight_eq_div_pow]
  omega

@[simp] theorem CommandWord.opd_encodeCommand (opc : BitVec 3) (opd : BitVec 5) :
    CommandWord.opd (encodeCommand opc opd) = opd := by
  apply BitVec.eq_of_toNat_eq
  simp only [CommandWord.opd, encodeCommand, BitVec.extractLsb'_toNat, toNat_append_eq,
    Nat.shiftRight_eq_div_pow]
  omega

theorem encodeCommand_opc_opd (w : CommandWord) :
    encodeCommand (CommandWord.opc w) (CommandWord.opd w) = w := by
  apply BitVec.eq_of_toNat_eq
  simp only [CommandWord.opc, CommandWord.opd, encodeCommand, BitVec.extractLsb'_toNat,
    toNat_append_eq, Nat.shiftRight_eq_div_pow]
  omega

theorem encodeCommand_toNat (opc : BitVec 3) (opd : BitVec 5) :
    (encodeCommand opc opd).toNat = opc.toNat * 32 + opd.toNat :=
  toNat_append_eq opc opd

/-- R90: the row of the counts below 16. -/
theorem decodeCommand_rdbits {c : BitVec 5} (hc : c.toNat < 16) :
    decodeCommand (encodeCommand 0b010#3 c) = .ok (.rdbits c) := by
  simp [decodeCommand, decodeRdbits, hc]

theorem encode_of_decodeRdbits {opd : BitVec 5} {i : Instr} (h : decodeRdbits opd = .ok i) :
    encode i = .command (encodeCommand 0b010#3 opd) ∧ i.wf = true := by
  unfold decodeRdbits at h
  split at h
  next hlt => cases h; exact ⟨rfl, decide_eq_true hlt⟩
  next =>
    split at h <;> cases h
    next h16 => exact ⟨by rw [BitVec.eq_of_toNat_eq (y := 16#5) h16]; rfl, rfl⟩

/-- R89: of SETPH's operand only bit 0 is free. -/
theorem setph_operand : ∀ opd : BitVec 5, opd.extractLsb' 1 4 = 0 →
    0#4 ++ BitVec.ofBool (opd.getLsbD 0) = opd := by decide

/-- R89: of START's operand only the bits r and b are free. -/
theorem start_operand : ∀ opd : BitVec 5, opd.extractLsb' 2 3 = 0 →
    0#3 ++ BitVec.ofBool (opd.getLsbD 1) ++ BitVec.ofBool (opd.getLsbD 0) = opd := by decide

/-- The rows of R89, read from the operand the decoder accepts. -/
theorem encode_of_decodeCommand {w : CommandWord} {i : Instr} (h : decodeCommand w = .ok i) :
    encode i = .command w ∧ i.wf = true := by
  rw [← encodeCommand_opc_opd w] at h ⊢
  generalize CommandWord.opc w = opc at h ⊢
  generalize CommandWord.opd w = opd at h ⊢
  simp only [decodeCommand, CommandWord.opc_encodeCommand, CommandWord.opd_encodeCommand] at h
  split at h
  next hopc =>
    split at h <;> cases h
    next hopd => rw [BitVec.eq_of_toNat_eq (y := 0#3) hopc, hopd]; exact ⟨rfl, rfl⟩
  next hopc =>
    split at h <;> cases h
    next hopd =>
      rw [BitVec.eq_of_toNat_eq (y := 1#3) hopc]
      exact ⟨by rw [encode, setph_operand opd hopd], rfl⟩
  next hopc =>
    rw [BitVec.eq_of_toNat_eq (y := 2#3) hopc]
    exact encode_of_decodeRdbits h
  next hopc =>
    split at h <;> cases h
    next hopd =>
      rw [BitVec.eq_of_toNat_eq (y := 3#3) hopc]
      exact ⟨by rw [encode, start_operand opd hopd], rfl⟩
  next hopc =>
    split at h <;> cases h
    next hopd => rw [BitVec.eq_of_toNat_eq (y := 4#3) hopc, hopd]; exact ⟨rfl, rfl⟩
  next => cases h

/-! ## Body words (R81) -/

theorem decodeBody_encodeBody (op : BitVec 2) (phy reg : BitVec 5) (ta : BitVec 2)
    (data : BitVec 16) :
    decodeBody (encodeBody op phy reg ta data) = .ok (frameOf op phy reg ta data) := by
  have hw := encodeBody_toNat op phy reg ta data
  have field {n : Nat} (start : Nat) (v : BitVec n)
      (h : (encodeBody op phy reg ta data).toNat / 2 ^ start % 2 ^ n = v.toNat) :
      (encodeBody op phy reg ta data).extractLsb' start n = v :=
    BitVec.eq_of_toNat_eq (by rw [BitVec.extractLsb'_toNat, Nat.shiftRight_eq_div_pow, h])
  unfold decodeBody
  rw [if_pos (field 30 0b01#2 (by rw [hw]; simp only [BitVec.toNat_ofNat]; omega)),
    field 28 op (by omega), field 23 phy (by omega), field 18 reg (by omega),
    field 16 ta (by omega), field 0 data (by omega)]

theorem encodeBody_extract {w : BodyWord} (h : w.extractLsb' 30 2 = 0b01#2) :
    encodeBody (w.extractLsb' 28 2) (w.extractLsb' 23 5) (w.extractLsb' 18 5) (w.extractLsb' 16 2)
      (w.extractLsb' 0 16) = w := by
  have hst : w.toNat / 2 ^ 30 % 2 ^ 2 = 1 := by
    simpa [BitVec.extractLsb'_toNat, Nat.shiftRight_eq_div_pow] using congrArg BitVec.toNat h
  apply BitVec.eq_of_toNat_eq
  simp only [encodeBody_toNat, BitVec.extractLsb'_toNat, Nat.shiftRight_eq_div_pow]
  omega

/-- The four operation values (R84). -/
theorem op_cases : ∀ op : BitVec 2, op = 0 ∨ op = 1 ∨ op = 2 ∨ op = 3 := by decide

/-- R84: the operation value chooses the row. -/
theorem encode_frameOf (op : BitVec 2) (phy reg : BitVec 5) (ta : BitVec 2) (data : BitVec 16) :
    encode (frameOf op phy reg ta data) = .body (encodeBody op phy reg ta data) ∧
      (frameOf op phy reg ta data).wf = true := by
  obtain rfl | rfl | rfl | rfl := op_cases op <;> exact ⟨rfl, rfl⟩

theorem encode_of_decodeBody {w : BodyWord} {i : Instr} (h : decodeBody w = .ok i) :
    encode i = .body w ∧ i.wf = true := by
  unfold decodeBody at h
  split at h
  next hst =>
    cases h
    have hrow := encode_frameOf (w.extractLsb' 28 2) (w.extractLsb' 23 5) (w.extractLsb' 18 5)
      (w.extractLsb' 16 2) (w.extractLsb' 0 16)
    rwa [encodeBody_extract hst] at hrow
  next => split at h <;> cases h

/-! ## The two directions of the round trip, and the table -/

/-- Settles O3: a body word holds its fields, and a command word its opcode and operand. -/
theorem decodeEncodeRoundTrip : Obligations.DecodeEncodeRoundTrip := by
  intro i hi
  cases i with
  | frameOp0 phy reg ta data => exact decodeBody_encodeBody 0 phy reg ta data
  | frameOp1 phy reg ta data => exact decodeBody_encodeBody 1 phy reg ta data
  | frameOp2 phy reg ta data => exact decodeBody_encodeBody 2 phy reg ta data
  | frameOp3 phy reg ta data => exact decodeBody_encodeBody 3 phy reg ta data
  | rdbits c => exact decodeCommand_rdbits (of_decide_eq_true hi)
  | setph p => cases p <;> decide
  | start b r => cases b <;> cases r <;> decide
  | nop | rdbits16 | pop => decide

/-- Settles O4, for the words of each encoding. -/
theorem decodedWordIsEncoding : Obligations.DecodedWordIsEncoding := by
  intro w i h
  cases w with
  | command w => exact encode_of_decodeCommand h
  | body w => exact encode_of_decodeBody h

/-- The words of R89's table, as ranges. -/
theorem listed_of_decodeCommand {w : CommandWord} {i : Instr} (h : decode (.command w) = .ok i) :
    w = 0x00 ∨ (0x20 ≤ w ∧ w ≤ 0x21) ∨ (0x40 ≤ w ∧ w ≤ 0x50) ∨ (0x60 ≤ w ∧ w ≤ 0x63) ∨ w = 0x80 := by
  obtain ⟨henc, hwf⟩ := encode_of_decodeCommand h
  cases i with
  | frameOp0 | frameOp1 | frameOp2 | frameOp3 => cases henc
  | nop | rdbits16 | pop => cases henc; decide
  | setph p => cases henc; cases p <;> decide
  | start b r => cases henc; cases b <;> cases r <;> decide
  | rdbits c =>
    cases henc
    have hc : c.toNat < 16 := of_decide_eq_true hwf
    have hw := encodeCommand_toNat 0b010#3 c
    have hlow : 64 ≤ (encodeCommand 0b010#3 c).toNat := by rw [hw]; exact Nat.le_add_right _ _
    have hhigh : (encodeCommand 0b010#3 c).toNat ≤ 80 := by
      rw [hw]; exact Nat.add_le_add_left hc.le _
    exact .inr (.inr (.inl ⟨hlow, hhigh⟩))

/-- R89: the words of the counts 0 to 15. -/
theorem encode_rdbits (c : BitVec 5) : encode (.rdbits c) = .command (0x40 + c.setWidth 8) := by
  refine congrArg Word.command (BitVec.eq_of_toNat_eq ?_)
  rw [encodeCommand_toNat, BitVec.toNat_add, BitVec.toNat_setWidth]
  show 64 + c.toNat = (64 + c.toNat % 2 ^ 8) % 2 ^ 8
  omega

/-- Settles O5: the words of the table are the encodings of well-formed commands (O3), and a word that
decodes is one of them (O4). -/
theorem commandWordTable : Obligations.CommandWordTable := by
  refine ⟨by decide, by decide, fun c hc => ?_, by decide, by decide, by decide, fun w hw => ?_⟩
  · rw [← encode_rdbits]
    exact decodeEncodeRoundTrip (.rdbits c) (decide_eq_true (Nat.lt_succ_of_le hc))
  · cases h : decode (.command w) with
    | ok i => exact absurd (listed_of_decodeCommand h) hw
    | error e => exact ⟨e, rfl⟩

/-- Settles O6, each word by running the decoder on it. -/
theorem bodyWordsOfTheSpec : Obligations.BodyWordsOfTheSpec := by
  unfold Obligations.BodyWordsOfTheSpec
  decide

/-! ## The bits of a body word in time order (R80, R82) -/

/-- The bits a frame row runs are those of its word: the fields side by side. -/
theorem bitsMsbFirst_encodeBody (op : BitVec 2) (phy reg : BitVec 5) (ta : BitVec 2)
    (data : BitVec 16) :
    bitsMsbFirst (encodeBody op phy reg ta data) = bodyBits op phy reg ta data := by
  have h : bitsMsbFirst (encodeBody op phy reg ta data) =
      bitsMsbFirst (0b01#2 ++ op ++ phy ++ reg ++ ta ++ data) := rfl
  simp only [h, bitsMsbFirst_append, bodyBits]

/-- Settles O7: bit k in time order is bit 31 - k of the word. -/
theorem bodyBitsAreTheWord : Obligations.BodyBitsAreTheWord := by
  intro op phy reg ta data
  rw [← bitsMsbFirst_encodeBody]
  refine List.map_congr_left fun k hk => ?_
  have hlt : k < 32 := List.mem_range.mp hk
  simp [BitVec.getMsbD, hlt]

end Sys2Proof

/-! # Frame bodies on the line: the bits the read function recovers, and what a body's bits decode to -/

namespace Sys2Proof.Machine

/-! ## The number a word's bits form (R82) -/

theorem foldl_bitsMsbFirst {n : Nat} (v : BitVec n) :
    (bitsMsbFirst v).foldl (fun k b => 2 * k + b.toNat) 0 = v.toNat := by
  have leading : ∀ m ≤ n, ((List.range m).map fun k => v.getMsbD k).foldl
      (fun k b => 2 * k + b.toNat) 0 = v.toNat / 2 ^ (n - m) := by
    intro m hm
    induction m with
    | zero => simp [Nat.div_eq_of_lt v.isLt]
    | succ m ih =>
      have hexp : n - m = n - (m + 1) + 1 := by omega
      rw [List.range_succ, List.map_append, List.foldl_append, ih (by omega)]
      simp only [List.map_cons, List.map_nil, List.foldl_cons, List.foldl_nil]
      have hbit : (v.getMsbD m).toNat = v.toNat / 2 ^ (n - (m + 1)) % 2 := by
        have hlt : m < n := hm
        have hidx : n - 1 - m = n - (m + 1) := by omega
        simp only [BitVec.getMsbD, hlt, decide_true, Bool.true_and, hidx, BitVec.getLsbD,
          Nat.toNat_testBit]
      rw [hbit, hexp, pow_succ, ← Nat.div_div_eq_div_mul]
      omega
  simpa [bitsMsbFirst] using leading n le_rfl

@[simp] theorem packMsbFirst_bitsMsbFirst {n : Nat} (v : BitVec n) :
    packMsbFirst n (bitsMsbFirst v) = v := by
  rw [packMsbFirst_eq_ofNat, foldl_bitsMsbFirst, BitVec.ofNat_toNat, BitVec.setWidth_eq]

/-- R143: a value shifted into the cleared register, bit by bit. -/
theorem foldl_shiftIn_bitsMsbFirst {n : Nat} (v : BitVec n) :
    (bitsMsbFirst v).foldl shiftIn 0 = v.setWidth 16 := by
  rw [foldl_shiftIn]
  exact (congrArg (BitVec.ofNat 16) (foldl_bitsMsbFirst v)).trans (BitVec.ofNat_toNat _ v)

/-! ## The read function (R116) -/

theorem clk_of_yieldsAfter {phase : Bool} {prev : Option Bool} {x : Sample}
    (h : yieldsAfter phase prev x = true) : x.clk = phase := by
  simp only [yieldsAfter, Bool.and_eq_true, beq_iff_eq] at h
  exact h.1

/-- The first bit and the bits after it, each with the records that hold it. -/
theorem scanBits_succ {phase : Bool} {prev : Option Bool} {xs : List Sample} {n k : Nat}
    {bs : List LogicalBit} (h : scanBits phase prev xs (n + 1) = some (bs, k)) :
    ∃ b bs' j k', bs = b :: bs' ∧ k = j + k' ∧ 1 ≤ j ∧ scanBits phase prev xs 1 = some ([b], j) ∧
      scanBits phase (some phase) (xs.drop j) n = some (bs', k') := by
  induction xs generalizing prev bs k with
  | nil => cases h
  | cons x xs ih =>
    cases hy : yieldsAfter phase prev x with
    | true =>
      simp only [scanBits, hy, if_true, Option.map_eq_some_iff] at h
      obtain ⟨⟨bs', k'⟩, hrest, heq⟩ := h
      cases heq
      refine ⟨_, bs', 1, k', rfl, Nat.add_comm _ _, le_rfl, by simp [scanBits, hy], ?_⟩
      rwa [clk_of_yieldsAfter hy] at hrest
    | false =>
      simp only [scanBits, hy, Bool.false_eq_true, if_false, Option.map_eq_some_iff] at h
      obtain ⟨⟨bs₁, k₁⟩, hrest, heq⟩ := h
      cases heq
      obtain ⟨b, bs', j, k', rfl, rfl, hj, hfirst, hlater⟩ := ih hrest
      exact ⟨b, bs', j + 1, k', rfl, by omega, by omega, by simp [scanBits, hy, hfirst], hlater⟩

/-- The capture of log 6 yields the bits it was made from, whatever level comes before it. -/
theorem scanBits_bodyCapture (phase : Bool) (prev : Option Bool) (bits : List Bool) (t : Nat) :
    ∃ bs k, scanBits phase prev (bodyCapture phase bits t) bits.length = some (bs, k) ∧
      bs.map (·.value) = bits := by
  induction bits generalizing prev t with
  | nil => exact ⟨[], 0, by simp [scanBits], rfl⟩
  | cons b bits ih =>
    obtain ⟨bs, k, hscan, hbits⟩ := ih (some phase) (t + 2)
    refine ⟨⟨b, BitVec.ofNat _ (t + 1)⟩ :: bs, k + 2, ?_, by simp [hbits]⟩
    simp [bodyCapture, scanBits, yieldsAfter, hscan]

/-- The records ahead of a placed body are the body's own. -/
theorem State.ahead_placeBody {s : State} (h : s.regs.pos ≤ s.mem.size) (w : BodyWord) :
    (s.placeBody w).ahead = bodyCapture Config.decodePhase (bitsMsbFirst w) s.regs.pos := by
  have hlen : (s.mem.records.take s.regs.pos).length = s.regs.pos := List.length_take_of_le h
  exact List.drop_left' hlen

theorem State.bodyAtCursor_placeBody {s : State} (h : s.regs.pos ≤ s.mem.size) (w : BodyWord) :
    (s.placeBody w).bodyAtCursor = some w := by
  obtain ⟨bs, k, hscan, hbits⟩ := scanBits_bodyCapture Config.decodePhase
    (s.placeBody w).regs.prevLevel (bitsMsbFirst w) s.regs.pos
  have hread : (s.placeBody w).readBits 32 = some (bs, k) := by
    rw [State.readBits, State.ahead_placeBody h, ← hscan, bitsMsbFirst_length]
    rfl
  simp [State.bodyAtCursor, hread, hbits]

theorem State.withFetchWord_body (s : State) (w : BodyWord) :
    s.withFetchWord 32 w.toNat = s.placeBody w := by
  simp [State.withFetchWord]

/-- Settles O13: the body the read function recovers is the one placed. -/
theorem placedBodyIsFetched : Obligations.PlacedBodyIsFetched := by
  intro s w i hpos hw
  have hfetch : (s.placeBody w).fetch = .run i := by
    show (s.placeBody w).fetchBody = .run i
    simp [State.fetchBody, State.bodyAtCursor_placeBody hpos, hw]
  rw [State.withFetchWord_body, step, hfetch]
  rfl

/-! ## The cursor takes no part in the acceptance of a bit -/

/-- The registers with the cursor at `p` behind a record of level `c`. -/
def Regs.moveTo (p : Nat) (c : Bool) (r : Regs) : Regs := { r with pos := p, prevClk := c }

section MoveTo

variable (p : Nat) (c : Bool) (r : Regs)

@[simp] theorem Regs.moveTo_pos : (r.moveTo p c).pos = p := rfl
@[simp] theorem Regs.moveTo_prevClk : (r.moveTo p c).prevClk = c := rfl
@[simp] theorem Regs.moveTo_phase : (r.moveTo p c).phase = r.phase := rfl
@[simp] theorem Regs.moveTo_status : (r.moveTo p c).status = r.status := rfl
@[simp] theorem Regs.moveTo_field : (r.moveTo p c).field = r.field := rfl
@[simp] theorem Regs.moveTo_need : (r.moveTo p c).need = r.need := rfl
@[simp] theorem Regs.moveTo_shreg : (r.moveTo p c).shreg = r.shreg := rfl
@[simp] theorem Regs.moveTo_ones : (r.moveTo p c).ones = r.ones := rfl
@[simp] theorem Regs.moveTo_frValid : (r.moveTo p c).frValid = r.frValid := rfl
@[simp] theorem Regs.moveTo_resync : (r.moveTo p c).resync = r.resync := rfl
@[simp] theorem Regs.moveTo_violSeen : (r.moveTo p c).violSeen = r.violSeen := rfl
@[simp] theorem Regs.moveTo_cmdErr : (r.moveTo p c).cmdErr = r.cmdErr := rfl

@[simp] theorem Regs.moveTo_moveTo (p' : Nat) (c' : Bool) :
    (r.moveTo p c).moveTo p' c' = r.moveTo p' c' := rfl

theorem Regs.violation_moveTo (k : ViolKind) :
    (r.moveTo p c).violation k = (r.violation k).moveTo p c := by
  unfold Regs.violation
  rw [Regs.moveTo_resync]
  cases r.resync <;> cases k <;> rfl

theorem Regs.raise_moveTo (e : Condition) : (r.moveTo p c).raise e = (r.raise e).moveTo p c := by
  cases e
  case preambleShort => exact r.violation_moveTo p c _
  case startMismatch => exact r.violation_moveTo p c _
  all_goals rfl

theorem Regs.endOfStream_moveTo : (r.moveTo p c).endOfStream = r.endOfStream.moveTo p c := by
  unfold Regs.endOfStream
  rw [Regs.moveTo_status, Regs.moveTo_field]
  cases r.status <;> cases r.field <;> rfl

theorem Regs.acceptRaw_moveTo (b : Bool) (t : Ts) :
    (r.moveTo p c).acceptRaw b t = (r.acceptRaw b t).moveTo p c := by
  simp only [Regs.acceptRaw, Regs.latchFirstTs_eq, Regs.moveTo_need]
  split <;> rfl

theorem Regs.acceptPre_moveTo (b : Bool) (t : Ts) :
    (r.moveTo p c).acceptPre b t = (r.acceptPre b t).moveTo p c := by
  simp only [Regs.acceptPre, Regs.moveTo_ones, Regs.raise_moveTo]
  cases b with
  | true => rfl
  | false => simp only [Bool.false_eq_true, if_false]; split <;> rfl

theorem Regs.acceptSt1_moveTo (b : Bool) :
    (r.moveTo p c).acceptSt1 b = (r.acceptSt1 b).moveTo p c := by
  simp only [Regs.acceptSt1, Regs.raise_moveTo]
  split <;> rfl

theorem Regs.completeField_moveTo (v : BitVec 16) :
    (r.moveTo p c).completeField v = (r.completeField v).moveTo p c := by
  unfold Regs.completeField
  rw [Regs.moveTo_field]
  cases r.field <;> rfl

theorem Regs.acceptCounted_moveTo (b : Bool) :
    (r.moveTo p c).acceptCounted b = (r.acceptCounted b).moveTo p c := by
  simp only [Regs.acceptCounted, Regs.moveTo_need, Regs.moveTo_shreg, Regs.completeField_moveTo]
  split <;> rfl

theorem Regs.acceptDecode_moveTo (b : Bool) (t : Ts) :
    (r.moveTo p c).acceptDecode b t = (r.acceptDecode b t).moveTo p c := by
  simp only [Regs.acceptDecode, Regs.moveTo_field, Regs.acceptPre_moveTo, Regs.acceptSt1_moveTo,
    Regs.acceptCounted_moveTo]
  cases r.field <;> rfl

theorem Regs.acceptBit_moveTo (b : Bool) (t : Ts) :
    (r.moveTo p c).acceptBit b t = (r.acceptBit b t).moveTo p c := by
  simp only [Regs.acceptBit, Regs.moveTo_status, Regs.acceptRaw_moveTo, Regs.acceptDecode_moveTo]
  cases r.status <;> rfl

end MoveTo

theorem Regs.examine_eq_moveTo (x : Sample) (r : Regs) :
    r.examine x = r.moveTo (r.pos + 1) x.clk := rfl

/-! ## The bits of a decode, one after another (R142) -/

/-- The bits `bs`, each accepted while a decode runs and no frame waits (R145), take the registers from
`r` to `r'`. -/
inductive Regs.Accepts : Regs → List LogicalBit → Regs → Prop
  | nil (r : Regs) : Accepts r [] r
  | cons {r r' : Regs} {b : LogicalBit} {bs : List LogicalBit} (status : r.status = .decode)
      (free : r.frValid = false) (rest : Accepts (r.acceptBit b.value b.ts) bs r') :
      Accepts r (b :: bs) r'

namespace Regs.Accepts

variable {r r' r'' : Regs} {bs cs : List LogicalBit}

theorem append (h : Accepts r bs r') (h' : Accepts r' cs r'') : Accepts r (bs ++ cs) r'' := by
  induction h with
  | nil => exact h'
  | cons status free _ ih => exact .cons status free (ih h')

theorem moveTo (h : Accepts r bs r') (p : Nat) (c : Bool) :
    Accepts (r.moveTo p c) bs (r'.moveTo p c) := by
  induction h with
  | nil => exact .nil _
  | cons status free _ ih => exact .cons status free (Regs.acceptBit_moveTo p c .. ▸ ih)

end Regs.Accepts

/-- A bit in a counted field (R142). -/
theorem Regs.acceptBit_counted {r : Regs} (status : r.status = .decode) (hpre : r.field ≠ .pre)
    (hst1 : r.field ≠ .st1) (b : Bool) (t : Ts) : r.acceptBit b t = r.acceptCounted b := by
  simp only [Regs.acceptBit, status, Regs.acceptDecode]
  split
  next h => exact absurd h hpre
  next h => exact absurd h hst1
  all_goals rfl

/-- R144: what a completed field leaves does not depend on the count and the bits before it. -/
theorem Regs.completeField_counting {r : Regs} (hpre : r.field ≠ .pre) (hst1 : r.field ≠ .st1)
    (v w : BitVec 16) (n : BitVec 5) :
    { r with shreg := w, need := n }.completeField v = r.completeField v := by
  simp only [Regs.completeField]
  split
  next h => exact absurd h hpre
  next h => exact absurd h hst1
  all_goals rfl

namespace Regs.Accepts

variable {r : Regs} {bs : List LogicalBit}

/-- R143: `need` bits of a counted field complete it with the value they form. -/
theorem counted (status : r.status = .decode) (free : r.frValid = false) (hpre : r.field ≠ .pre)
    (hst1 : r.field ≠ .st1) (hneed : r.need.toNat = bs.length) (hbs : bs ≠ []) :
    Accepts r bs (r.completeField ((bs.map (·.value)).foldl shiftIn r.shreg)) := by
  induction bs generalizing r with
  | nil => exact absurd rfl hbs
  | cons b bs ih =>
    refine .cons status free ?_
    rw [Regs.acceptBit_counted status hpre hst1, Regs.acceptCounted]
    cases bs with
    | nil =>
      have hlast : r.need - 1 = 0 := by
        rw [BitVec.eq_of_toNat_eq (y := 1#5) hneed]; rfl
      rw [if_pos hlast]
      exact .nil _
    | cons b' bs =>
      rw [List.length_cons, List.length_cons] at hneed
      have hmore : r.need - 1 ≠ 0 := by bv_omega
      have hpred : (r.need - 1).toNat = bs.length + 1 := by bv_omega
      rw [if_neg hmore]
      have hrest := ih (r := { r with shreg := shiftIn r.shreg b.value, need := r.need - 1 }) status
        free hpre hst1 hpred (List.cons_ne_nil _ _)
      rwa [Regs.completeField_counting hpre hst1] at hrest

/-- A whole counted field, from its entry to the value `v` it carries (R144). -/
theorem field {f : FrameField} {n : Nat} {v : BitVec n} (hbs : bs.map (·.value) = bitsMsbFirst v)
    (status : r.status = .decode) (free : r.frValid = false) (hf : f.width.toNat = n)
    (hpre : f ≠ .pre) (hst1 : f ≠ .st1) :
    Accepts (r.enterField f) bs ((r.enterField f).completeField (v.setWidth 16)) := by
  have hlen : bs.length = n := by simpa using congrArg List.length hbs
  have hpos : 1 ≤ n := hf ▸ FrameField.one_le_width hpre hst1
  have h := counted (r := r.enterField f) (bs := bs) status free hpre hst1 (hf.trans hlen.symm)
    (List.ne_nil_of_length_pos (hlen ▸ hpos))
  rwa [hbs, Regs.enterField_shreg, foldl_shiftIn_bitsMsbFirst] at h

end Regs.Accepts

/-! ## A frame body (R172, R174, R176 to R181) -/

/-- The registers once a frame waits in them (R181). -/
def Regs.withFrame (ts : Option Ts) (op : BitVec 2) (phy reg : BitVec 5) (data : BitVec 16)
    (r : Regs) : Regs :=
  { r with frTs := ts, frOp := op, frPhy := phy, frReg := reg }.emitFrame data

/-- R172: the 0-bit after a complete preamble. -/
theorem Regs.acceptBit_start {r : Regs} (status : r.status = .decode) (hf : r.field = .pre)
    (hones : 16 ≤ r.ones.toNat) (t : Ts) :
    r.acceptBit false t = { r with frTs := some t, field := .st1 } := by
  simp [Regs.acceptBit, status, Regs.acceptDecode, hf, Regs.acceptPre, hones]

/-- R174: the 1-bit of the start code. -/
theorem Regs.acceptBit_st1 {r : Regs} (status : r.status = .decode) (hf : r.field = .st1) (t : Ts) :
    r.acceptBit true t = r.enterField .op := by
  simp [Regs.acceptBit, status, Regs.acceptDecode, hf, Regs.acceptSt1]

/-! R176 to R180: each counted field, completed with the value it carries. -/

theorem Regs.completeField_op (r : Regs) (v : BitVec 2) :
    (r.enterField .op).completeField (v.setWidth 16) = { r with frOp := v }.enterField .phy := by
  simp [Regs.completeField, Regs.enterField, BitVec.setWidth_setWidth_of_le]

theorem Regs.completeField_phy (r : Regs) (v : BitVec 5) :
    (r.enterField .phy).completeField (v.setWidth 16) = { r with frPhy := v }.enterField .reg := by
  simp [Regs.completeField, Regs.enterField, BitVec.setWidth_setWidth_of_le]

theorem Regs.completeField_reg (r : Regs) (v : BitVec 5) :
    (r.enterField .reg).completeField (v.setWidth 16) = { r with frReg := v }.enterField .ta := by
  simp [Regs.completeField, Regs.enterField, BitVec.setWidth_setWidth_of_le]

theorem Regs.completeField_ta (r : Regs) (v : BitVec 16) :
    (r.enterField .ta).completeField v = r.enterField .data := rfl

theorem Regs.completeField_data (r : Regs) (v : BitVec 16) :
    (r.enterField .data).completeField (v.setWidth 16) = r.emitFrame v := by
  rw [BitVec.setWidth_eq]; rfl

namespace Regs.Accepts

variable {r : Regs} {bs : List LogicalBit}

/-- The start code 01 after a complete preamble (R172, R174). -/
theorem startCode (hbs : bs.map (·.value) = [false, true]) (status : r.status = .decode)
    (free : r.frValid = false) (hf : r.field = .pre) (hones : 16 ≤ r.ones.toNat) :
    Accepts r bs ({ r with frTs := bs.head?.map LogicalBit.ts }.enterField .op) := by
  obtain ⟨b, bs, rfl, hb, hbs⟩ := List.map_eq_cons_iff.mp hbs
  obtain ⟨b', bs, rfl, hb', hbs⟩ := List.map_eq_cons_iff.mp hbs
  obtain rfl : bs = [] := by simpa using hbs
  refine .cons status free (.cons ?_ ?_ ?_)
  all_goals rw [hb, acceptBit_start status hf hones]
  · exact status
  · exact free
  · rw [hb', acceptBit_st1 (r := { r with frTs := some b.ts, field := .st1 }) status rfl]
    exact .nil _

/-- R172 to R181: a body after its preamble is decoded whole, field by field. -/
theorem body {op : BitVec 2} {phy reg : BitVec 5} {ta : BitVec 2} {data : BitVec 16}
    (hbs : bs.map (·.value) = bodyBits op phy reg ta data) (status : r.status = .decode)
    (free : r.frValid = false) (hf : r.field = .pre) (hones : 16 ≤ r.ones.toNat) :
    Accepts r bs (r.withFrame (bs.head?.map LogicalBit.ts) op phy reg data) := by
  obtain ⟨bs, dataBits, rfl, hbs, hdata⟩ := List.map_eq_append_iff.mp hbs
  obtain ⟨bs, taBits, rfl, hbs, hta⟩ := List.map_eq_append_iff.mp hbs
  obtain ⟨bs, regBits, rfl, hbs, hreg⟩ := List.map_eq_append_iff.mp hbs
  obtain ⟨bs, phyBits, rfl, hbs, hphy⟩ := List.map_eq_append_iff.mp hbs
  obtain ⟨stBits, opBits, rfl, hst, hop⟩ := List.map_eq_append_iff.mp hbs
  have hts : (stBits ++ opBits ++ phyBits ++ regBits ++ taBits ++ dataBits).head? = stBits.head? := by
    cases stBits with
    | nil => cases hst
    | cons => rfl
  have h₁ := startCode hst status free hf hones
  have h₂ := h₁.append (field hop status free rfl (by decide) (by decide))
  rw [Regs.completeField_op] at h₂
  have h₃ := h₂.append (field hphy status free rfl (by decide) (by decide))
  rw [Regs.completeField_phy] at h₃
  have h₄ := h₃.append (field hreg status free rfl (by decide) (by decide))
  rw [Regs.completeField_reg] at h₄
  have h₅ := h₄.append (field hta status free rfl (by decide) (by decide))
  rw [Regs.completeField_ta] at h₅
  have h₆ := h₅.append (field hdata status free rfl (by decide) (by decide))
  rw [Regs.completeField_data] at h₆
  rwa [hts]

end Regs.Accepts

/-! ## A frame row (log 5) -/

/-- The state after the `k` records that hold the bits `bs`, with the registers those bits leave. -/
def State.received (bs : List LogicalBit) (k : Nat) (r : Regs) (s : State) : State :=
  { s with
    regs := r.moveTo (s.regs.pos + k) s.regs.phase
    bitOut := bs.getLast?
    popOut := none
    bitLog := s.bitLog ++ bs }

/-- Bits received in two parts. -/
theorem State.received_received {r : Regs} {s : State} (hphase : r.phase = s.regs.phase)
    (b b' : LogicalBit) (bs : List LogicalBit) (j k : Nat) (r' : Regs) (p : Nat) (c : Bool) :
    (s.received [b] j r).received (b' :: bs) k (r'.moveTo p c) =
      s.received (b :: b' :: bs) (j + k) r' := by
  simp [State.received, hphase, Nat.add_assoc]

/-- R111: the records up to the first yielding one pass, and its bit is accepted. -/
theorem State.takeBit_eq_received {s : State} {xs : List Sample} {b : LogicalBit} {j : Nat}
    (h : scanBits s.regs.phase s.regs.prevLevel xs 1 = some ([b], j)) :
    s.takeBit b.value xs = s.received [b] j (s.regs.acceptBit b.value b.ts) := by
  induction xs generalizing s j with
  | nil => cases h
  | cons x xs ih =>
    have hy := s.regs.yields_eq_yieldsAfter x
    cases hyield : yieldsAfter s.regs.phase s.regs.prevLevel x with
    | true =>
      rw [hyield] at hy
      simp only [scanBits, hyield, if_true, Option.map_some, Option.some.injEq, Prod.mk.injEq,
        List.cons.injEq, and_true] at h
      obtain ⟨rfl, rfl⟩ := h
      simp only [State.takeBit, hy, if_true]
      rw [State.advanceOn_yield hy, Regs.examine_eq_moveTo, Regs.acceptBit_moveTo,
        clk_of_yieldsAfter hyield]
      rfl
    | false =>
      rw [hyield] at hy
      simp only [scanBits, hyield, Bool.false_eq_true, if_false, Option.map_eq_some_iff] at h
      obtain ⟨⟨bs, j'⟩, hrest, heq⟩ := h
      cases heq
      simp only [State.takeBit, hy, Bool.false_eq_true, if_false]
      rw [State.advanceOn_skip hy, ih (by simpa [Regs.prevLevel_examine] using hrest)]
      simp [State.received, Regs.examine_eq_moveTo, Regs.acceptBit_moveTo, Nat.add_comm,
        Nat.add_left_comm]

/-- The read function after some bits goes on where they end. -/
theorem State.readBits_received {s : State} {r : Regs} {j : Nat} (hj : 1 ≤ j)
    (hphase : r.phase = s.regs.phase) (bs : List LogicalBit) (n : Nat) :
    (s.received bs j r).readBits n = scanBits s.regs.phase (some s.regs.phase) (s.ahead.drop j) n := by
  have hj0 : j ≠ 0 := Nat.one_le_iff_ne_zero.mp hj
  simp [State.readBits, State.received, State.ahead, Regs.prevLevel, hj0, hphase]

theorem Regs.examining_of_decode {r : Regs} (status : r.status = .decode) (free : r.frValid = false) :
    r.examining = true := by
  simp [Regs.examining, status, free]

theorem State.deliver_eq_received {s : State} {b : LogicalBit} {j : Nat}
    (examining : s.regs.examining = true) (h : s.readBits 1 = some ([b], j)) :
    s.deliver b.value = s.received [b] j (s.regs.acceptBit b.value b.ts) := by
  rw [State.deliver, if_pos examining]
  exact State.takeBit_eq_received h

/-- Bits a decode accepts are delivered one by one (R80, R111). -/
theorem Regs.Accepts.deliverAll {s : State} {b : LogicalBit} {bs : List LogicalBit} {r : Regs} {k : Nat}
    (h : Accepts s.regs (b :: bs) r) (hread : s.readBits (bs.length + 1) = some (b :: bs, k)) :
    s.deliverAll ((b :: bs).map (·.value)) = s.received (b :: bs) k r := by
  induction bs generalizing s b r k with
  | nil =>
    cases h with
    | cons status free rest =>
      cases rest
      exact State.deliver_eq_received (Regs.examining_of_decode status free) hread
  | cons b' bs ih =>
    cases h with
    | cons status free rest =>
      obtain ⟨_, _, j, k, heq, rfl, hj, hfirst, hlater⟩ := scanBits_succ hread
      cases heq
      have hphase : (s.regs.acceptBit b.value b.ts).phase = s.regs.phase :=
        (Regs.acceptBit_same b.value b.ts s.regs).phase
      have hread' := (State.readBits_received hj hphase [b] _).trans hlater
      rw [List.map_cons, State.deliverAll, List.foldl_cons,
        State.deliver_eq_received (Regs.examining_of_decode status free) hfirst]
      exact (ih (rest.moveTo _ _) hread').trans (State.received_received hphase ..)

/-- R84: the row of an operation value runs that body. -/
theorem exec_frameOf (op : BitVec 2) (phy reg : BitVec 5) (ta : BitVec 2) (data : BitVec 16) (s : State) :
    exec (frameOf op phy reg ta data) s = .next (s.deliverAll (bodyBits op phy reg ta data)) := by
  obtain rfl | rfl | rfl | rfl := op_cases op <;> rfl

/-- A frame row after its preamble, for every operation value. -/
theorem exec_frameOf_ready {s : State} {op : BitVec 2} {phy reg : BitVec 5} {ta : BitVec 2}
    {data : BitVec 16} {bs : List LogicalBit} {k : Nat} (ready : Claims.FrameReady s)
    (ahead : Claims.BodyAhead s bs k op phy reg ta data) :
    exec (frameOf op phy reg ta data) s = .next (Claims.frameDone s bs k op phy reg data) := by
  obtain ⟨status, free, hf, hones⟩ := ready
  obtain ⟨hread, hbits⟩ := ahead
  cases bs with
  | nil => cases congrArg List.length hbits
  | cons b bs =>
    have hlen : bs.length + 1 = 32 := by simpa using congrArg List.length hbits
    rw [exec_frameOf, ← hbits, (Regs.Accepts.body hbits status free hf hones).deliverAll (hlen ▸ hread)]
    rfl

/-- Settles O37: the four rows are the four operation values. -/
theorem frameRowsDecode : Obligations.FrameRowsDecode := fun _ _ _ _ _ _ _ ready =>
  ⟨exec_frameOf_ready (op := 0) ready, exec_frameOf_ready (op := 1) ready,
    exec_frameOf_ready (op := 2) ready, exec_frameOf_ready (op := 3) ready⟩

/-- R150: POP where a frame waits. -/
theorem execPop_waiting {s : State} (status : s.regs.status = .decode) (frame : s.regs.frValid = true) :
    execPop s = .next s.popFrame :=
  if_pos ⟨status, frame⟩

theorem runAll_cons_of_next {i : Instr} {s t : State} (h : exec i s = .next t) (is : List Instr) :
    runAll (i :: is) s = runAll is t := by
  rw [runAll, h]
  rfl

/-- Settles O40: the frame row leaves the frame waiting, and POP hands it over. -/
theorem frameThenPopDelivers : Obligations.FrameThenPopDelivers := by
  intro s op phy reg ta data b bs k ready ahead
  have status : s.regs.status = .decode := ready.1
  have hpop : exec .pop (Claims.frameDone s (b :: bs) k op phy reg data) =
      .next (Claims.frameDone s (b :: bs) k op phy reg data).popFrame := execPop_waiting status rfl
  have hrun : runAll [frameOf op phy reg ta data, .pop] s =
      (Claims.frameDone s (b :: bs) k op phy reg data).popFrame := by
    rw [runAll_cons_of_next (exec_frameOf_ready ready ahead), runAll_cons_of_next hpop, runAll]
  rw [hrun]
  exact ⟨rfl, rfl, rfl, rfl, rfl, status⟩

end Sys2Proof.Machine

/-! # Whole sessions: what PULL hands over, and the captures of R95 decoded -/

namespace Sys2Proof.Machine

/-! ## The ticks of PULL (R94) -/

theorem hostTick_of_exec {w : CommandWord} {i : Instr} {s t : State} (input : s.inbox = [])
    (hw : decode (.command w) = .ok i) (h : exec i s = .next t) : hostTick w s = t := by
  have hs : { s with inbox := [HostInput.command w] }.takeInput = s := by cases s; cases input; rfl
  have hfetch : { s with inbox := [HostInput.command w] }.fetch = .run i := by
    simp [State.fetch, fetchCommand, hw]
  rw [hostTick, step, hs, hfetch, State.runFetched, h]
  rfl

theorem pullAll_of_terminal {s : State} (h : s.regs.status.terminal = true) (n : Nat) :
    pullAll n s = s := by
  cases n with
  | zero => rfl
  | succ n => rw [pullAll, if_pos h]

/-- NOP while no frame waits. -/
theorem pullAll_succ_of_free {s : State} (input : s.inbox = []) (status : s.regs.status = .decode)
    (free : s.regs.frValid = false) (n : Nat) : pullAll (n + 1) s = pullAll n s.runTick := by
  rw [pullAll, if_neg (by simp [status, Status.terminal]), free, if_neg Bool.false_ne_true,
    hostTick_of_exec (w := 0x00#8) (i := .nop) input (by decide) rfl]

/-- POP where a frame waits. -/
theorem pullAll_succ_of_waiting {s : State} (input : s.inbox = []) (status : s.regs.status = .decode)
    (frame : s.regs.frValid = true) (n : Nat) : pullAll (n + 1) s = pullAll n s.popFrame := by
  rw [pullAll, if_neg (by simp [status, Status.terminal]), frame, if_pos rfl,
    hostTick_of_exec (w := 0x80#8) (i := .pop) input (by decide) (execPop_waiting status frame)]

/-! ## How a decode's bits and its end leave the status (R146, R183) -/

theorem Regs.endOfStream_terminal {r : Regs} (status : r.status = .decode) :
    r.endOfStream.status.terminal = true := by
  simp only [Regs.endOfStream, status]
  split <;> rfl

theorem Regs.endOfStream_of_terminal {r : Regs} (h : r.status.terminal = true) : r.endOfStream = r := by
  unfold Regs.endOfStream
  split
  next hs => rw [hs] at h; cases h
  next hs => rw [hs] at h; cases h
  next => rfl

theorem Regs.acceptBit_of_terminal {r : Regs} (h : r.status.terminal = true) (b : Bool) (t : Ts) :
    r.acceptBit b t = r := by
  unfold Regs.acceptBit
  split
  next hs => rw [hs] at h; cases h
  next hs => rw [hs] at h; cases h
  next => rfl

/-- A violation goes on decoding or ends the decode, and delivers no frame (R183). -/
theorem Regs.violation_status {r : Regs} (status : r.status = .decode) (k : ViolKind) :
    (r.violation k).status = .decode ∨
      ((r.violation k).status.terminal = true ∧ (r.violation k).frValid = r.frValid) := by
  unfold Regs.violation
  split
  · exact .inl status
  · cases k <;> exact .inr ⟨rfl, rfl⟩

theorem Regs.acceptCounted_status (r : Regs) (b : Bool) : (r.acceptCounted b).status = r.status := by
  simp only [Regs.acceptCounted, Regs.completeField]
  (repeat' split) <;> rfl

/-- A bit of a decode leaves it running, or ends it by a violation with no frame delivered. -/
theorem Regs.acceptBit_status {r : Regs} (status : r.status = .decode) (b : Bool) (t : Ts) :
    (r.acceptBit b t).status = .decode ∨
      ((r.acceptBit b t).status.terminal = true ∧ (r.acceptBit b t).frValid = r.frValid) := by
  simp only [Regs.acceptBit, status, Regs.acceptDecode]
  cases r.field with
  | pre =>
    simp only [Regs.acceptPre]
    split
    · exact .inl status
    · split
      · exact .inl status
      · exact Regs.violation_status status _
  | st1 =>
    simp only [Regs.acceptSt1]
    split
    · exact .inl status
    · exact Regs.violation_status status _
  | op | phy | reg | ta | data => exact .inl ((r.acceptCounted_status b).trans status)

/-! ## What PULL makes of the yielded bits -/

/-- A waiting frame, handed over to the host that has the frames `fs` (R150). -/
def Regs.handOver (fs : List Frame) (r : Regs) : List Frame × Regs :=
  if r.frValid then (fs ++ [r.frame], r.clearFrValid) else (fs, r)

/-- One bit of a decode whose frames are popped at once. -/
def pullBit (d : List Frame × Regs) (b : LogicalBit) : List Frame × Regs :=
  (d.2.acceptBit b.value b.ts).handOver d.1

theorem Regs.handOver_of_free {r : Regs} (free : r.frValid = false) (fs : List Frame) :
    r.handOver fs = (fs, r) := by
  simp [Regs.handOver, free]

theorem Regs.handOver_of_waiting {r : Regs} (frame : r.frValid = true) (fs : List Frame) :
    r.handOver fs = (fs ++ [r.frame], r.clearFrValid) := by
  simp [Regs.handOver, frame]

theorem foldl_pullBit_of_terminal {r : Regs} (h : r.status.terminal = true) (free : r.frValid = false)
    (fs : List Frame) (bs : List LogicalBit) : bs.foldl pullBit (fs, r) = (fs, r) := by
  induction bs with
  | nil => rfl
  | cons b bs ih =>
    rw [List.foldl_cons, pullBit, Regs.acceptBit_of_terminal h, Regs.handOver_of_free free, ih]

/-- Bits that a decode accepts deliver a frame at their end or none. -/
theorem Regs.Accepts.foldl_pullBit {r r' : Regs} {bs : List LogicalBit} (h : Accepts r bs r')
    (hbs : bs ≠ []) (fs : List Frame) : bs.foldl pullBit (fs, r) = r'.handOver fs := by
  induction h with
  | nil => exact absurd rfl hbs
  | cons status free rest ih =>
    rw [List.foldl_cons, pullBit]
    cases rest with
    | nil => rfl
    | cons status' free' rest' =>
      rw [Regs.handOver_of_free free']
      exact ih (List.cons_ne_nil _ _)

theorem State.read_of_ahead_eq_nil {s : State} (h : s.ahead = []) : s.mem.read s.regs.pos = none := by
  cases hread : s.mem.read s.regs.pos with
  | none => rfl
  | some x => rw [State.ahead_eq_cons hread] at h; cases h

/-- The frames handed over in a session and its registers but the cursor. -/
def State.session (s : State) : List Frame × Regs := (s.popLog, s.regs.moveTo 0 false)

/-- The session once PULL has been given all the bits the records ahead yield. -/
def State.pulled (s : State) : List Frame × Regs :=
  (yieldedBits s.regs.phase s.regs.prevLevel s.ahead).foldl pullBit s.session

theorem State.pulled_of_ahead_eq_nil {s : State} (h : s.ahead = []) : s.pulled = s.session := by
  rw [State.pulled, h]
  rfl

theorem State.pulled_of_terminal {s : State} (h : s.regs.status.terminal = true)
    (free : s.regs.frValid = false) : s.pulled = s.session :=
  foldl_pullBit_of_terminal (r := s.regs.moveTo 0 false) h free _ _

@[simp] theorem State.advanceOn_mem (o : Option Sample) (s : State) : (s.advanceOn o).mem = s.mem :=
  (s.advanceOn_keeps o).1

@[simp] theorem State.advanceOn_inbox (o : Option Sample) (s : State) :
    (s.advanceOn o).inbox = s.inbox := by
  obtain ⟨-, hinbox, -⟩ := s.advanceOn_keeps o
  exact hinbox

@[simp] theorem State.advanceOn_popLog (o : Option Sample) (s : State) :
    (s.advanceOn o).popLog = s.popLog := by
  obtain ⟨-, -, hlog, -⟩ := s.advanceOn_keeps o
  exact hlog

/-- An examined record leaves the registers of the session alone but for the cursor (R113). -/
theorem State.advanceOn_some_same (x : Sample) (s : State) :
    (s.regs.examine x).SameSession (s.advanceOn (some x)).regs := by
  cases hy : s.regs.yields x with
  | true => rw [State.advanceOn_yield hy]; exact Regs.acceptBit_same ..
  | false => rw [State.advanceOn_skip hy]; exact .refl _

theorem State.advanceOn_some_prevLevel (x : Sample) (s : State) :
    (s.advanceOn (some x)).regs.prevLevel = some x.clk := by
  have same := s.advanceOn_some_same x
  simp [Regs.prevLevel, same.pos, same.prevClk]

theorem State.ahead_advanceOn {s : State} {x : Sample} {xs : List Sample} (h : s.ahead = x :: xs) :
    (s.advanceOn (some x)).ahead = xs := by
  have hahead := (State.read_of_ahead_eq_cons h).2
  rwa [State.ahead, State.advanceOn_mem, (s.advanceOn_some_same x).pos]

/-- A record of a decode leaves it running, or ends it by a violation with no frame delivered. -/
theorem State.advanceOn_some_status {s : State} (status : s.regs.status = .decode) (x : Sample) :
    (s.advanceOn (some x)).regs.status = .decode ∨
      ((s.advanceOn (some x)).regs.status.terminal = true ∧
        (s.advanceOn (some x)).regs.frValid = s.regs.frValid) := by
  cases hy : s.regs.yields x with
  | true =>
    rw [State.advanceOn_yield hy]
    exact Regs.acceptBit_status (r := s.regs.examine x) status x.dat x.ts
  | false => rw [State.advanceOn_skip hy]; exact .inl status

/-- One record's part in what PULL makes of the records ahead. -/
theorem State.pulled_eq_handOver {s : State} {x : Sample} {xs : List Sample} (h : s.ahead = x :: xs)
    (free : s.regs.frValid = false) :
    s.pulled = (yieldedBits s.regs.phase (some x.clk) xs).foldl pullBit
      (((s.advanceOn (some x)).regs.moveTo 0 false).handOver s.popLog) := by
  have hyield := s.regs.yields_eq_yieldsAfter x
  cases hy : s.regs.yields x with
  | true =>
    rw [State.advanceOn_yield hy, State.pulled, h, yieldedBits, if_pos (hyield ▸ hy), List.foldl_cons,
      Regs.examine_eq_moveTo, Regs.acceptBit_moveTo]
    simp [pullBit, State.session, Regs.acceptBit_moveTo]
  | false =>
    rw [State.advanceOn_skip hy, State.pulled, h, yieldedBits, if_neg (by simp [← hyield, hy]),
      State.withRegs_regs,
      Regs.handOver_of_free (r := (s.regs.examine x).moveTo 0 false) free]
    rfl

theorem State.pulled_advanceOn {s : State} {x : Sample} {xs : List Sample} (h : s.ahead = x :: xs)
    (free : s.regs.frValid = false) (free' : (s.advanceOn (some x)).regs.frValid = false) :
    (s.advanceOn (some x)).pulled = s.pulled := by
  rw [State.pulled_eq_handOver h free, State.pulled, State.ahead_advanceOn h,
    State.advanceOn_some_prevLevel, (s.advanceOn_some_same x).phase, State.session,
    State.advanceOn_popLog,
    Regs.handOver_of_free (r := (s.advanceOn (some x)).regs.moveTo 0 false) free']
  rfl

theorem State.pulled_popFrame_advanceOn {s : State} {x : Sample} {xs : List Sample}
    (h : s.ahead = x :: xs) (free : s.regs.frValid = false)
    (frame : (s.advanceOn (some x)).regs.frValid = true) :
    (s.advanceOn (some x)).popFrame.pulled = s.pulled := by
  have hahead : (s.advanceOn (some x)).popFrame.ahead = xs := State.ahead_advanceOn h
  have hprev : (s.advanceOn (some x)).popFrame.regs.prevLevel = some x.clk :=
    s.advanceOn_some_prevLevel x
  have hphase : (s.advanceOn (some x)).popFrame.regs.phase = s.regs.phase :=
    (s.advanceOn_some_same x).phase
  rw [State.pulled_eq_handOver h free, State.pulled, hahead, hprev, hphase, State.session,
    State.popFrame_popLog, State.advanceOn_popLog,
    Regs.handOver_of_waiting (r := (s.advanceOn (some x)).regs.moveTo 0 false) frame]
  rfl

/-- PULL, for ticks enough, hands over what the bits of the records ahead make, and ends as the end of
the capture does. -/
theorem session_pullAll {s : State} {n : Nat} (input : s.inbox = []) (status : s.regs.status = .decode)
    (free : s.regs.frValid = false) (hn : 2 * s.ahead.length + 1 ≤ n) :
    (pullAll n s).session = s.pulled.map id Regs.endOfStream := by
  generalize hxs : s.ahead = xs at hn
  have examining : s.regs.examining = true := Regs.examining_of_decode status free
  induction xs generalizing s n with
  | nil =>
    obtain ⟨n, rfl⟩ := Nat.exists_eq_add_of_le' hn
    have htick : s.runTick = s.withRegs s.regs.endOfStream := by
      rw [State.runTick_of_examining examining, State.advance, State.read_of_ahead_eq_nil hxs,
        State.advanceOn_none]
    rw [State.pulled_of_ahead_eq_nil hxs, List.length_nil, pullAll_succ_of_free input status free,
      htick, pullAll_of_terminal (Regs.endOfStream_terminal status)]
    simp [State.session, Regs.endOfStream_moveTo]
  | cons x xs ih =>
    rw [List.length_cons] at hn
    obtain ⟨n, rfl⟩ := Nat.exists_eq_add_of_le' (show 2 ≤ n by omega)
    have htick : s.runTick = s.advanceOn (some x) := by
      rw [State.runTick_of_examining examining, State.advance, (State.read_of_ahead_eq_cons hxs).1]
    have input' : (s.advanceOn (some x)).inbox = [] := (s.advanceOn_inbox _).trans input
    have hahead : (s.advanceOn (some x)).ahead = xs := State.ahead_advanceOn hxs
    rw [pullAll_succ_of_free input status free, htick]
    obtain status' | ⟨terminal, kept⟩ := State.advanceOn_some_status status x
    · cases frame : (s.advanceOn (some x)).regs.frValid with
      | false =>
        rw [ih input' status' frame hahead (by omega) (Regs.examining_of_decode status' frame),
          State.pulled_advanceOn hxs free frame]
      | true =>
        rw [pullAll_succ_of_waiting input' status' frame,
          ih (s := (s.advanceOn (some x)).popFrame) input' status' rfl hahead (by omega)
            (Regs.examining_of_decode status' rfl),
          State.pulled_popFrame_advanceOn hxs free frame]
    · have free' := kept.trans free
      rw [pullAll_of_terminal terminal, ← State.pulled_advanceOn hxs free free',
        State.pulled_of_terminal terminal free']
      simp [State.session, Regs.endOfStream_of_terminal, terminal]

/-! ## The bits of a capture of R95 -/

/-- The bits a capture of R95 yields, with the timestamp of each one's first record; `i` is the number of
the first record. -/
def traceBits (spb : Nat) (t0 dt : Ts) : Nat → List Bool → List LogicalBit
  | _, [] => []
  | i, b :: bs => ⟨b, t0 + dt * BitVec.ofNat _ i⟩ :: traceBits spb t0 dt (i + 2 * spb) bs

/-- Records at the level of the one before them yield nothing (R110). -/
theorem yieldedBits_same_level {phase c : Bool} {xs : List Sample} (h : ∀ x ∈ xs, x.clk = c)
    (rest : List Sample) :
    yieldedBits phase (some c) (xs ++ rest) = yieldedBits phase (some c) rest := by
  induction xs with
  | nil => rfl
  | cons x xs ih =>
    have hx : x.clk = c := h x List.mem_cons_self
    have hy : yieldsAfter phase (some c) x = false := by
      cases c <;> cases phase <;> simp [yieldsAfter, hx]
    rw [List.cons_append, yieldedBits, hy, hx, if_neg Bool.false_ne_true]
    exact ih fun y hy => h y (List.mem_cons_of_mem _ hy)

/-- The two half-cycles of a bit yield it once, at phase 0. -/
theorem yieldedBits_traceBit {spb : Nat} (hspb : 1 ≤ spb) (t0 dt : Ts) (i : Nat) (b : Bool)
    {prev : Option Bool} (hprev : prev ≠ some false) (rest : List Sample) :
    yieldedBits false prev (traceBit spb t0 dt i b ++ rest) =
      ⟨b, t0 + dt * BitVec.ofNat _ i⟩ :: yieldedBits false (some true) rest := by
  obtain ⟨n, rfl⟩ := Nat.exists_eq_add_of_le' hspb
  rw [traceBit, List.range_succ_eq_map, List.map_cons, List.map_cons, List.append_assoc,
    List.cons_append, yieldedBits, if_pos (by simp [yieldsAfter, hprev]),
    yieldedBits_same_level (by simp), List.cons_append, yieldedBits, if_neg (by simp [yieldsAfter]),
    yieldedBits_same_level (by simp)]
  rfl

theorem yieldedBits_traceFrom {spb : Nat} (hspb : 1 ≤ spb) (t0 dt : Ts) (i : Nat) (bits : List Bool)
    {prev : Option Bool} (hprev : prev ≠ some false) :
    yieldedBits false prev (traceFrom spb t0 dt i bits) = traceBits spb t0 dt i bits := by
  induction bits generalizing i prev with
  | nil => rfl
  | cons b bits ih =>
    rw [traceFrom, yieldedBits_traceBit hspb t0 dt i b hprev, ih _ (by decide), traceBits]

theorem traceBits_append (spb : Nat) (t0 dt : Ts) (i : Nat) (as bs : List Bool) :
    traceBits spb t0 dt i (as ++ bs) =
      traceBits spb t0 dt i as ++ traceBits spb t0 dt (i + 2 * spb * as.length) bs := by
  induction as generalizing i with
  | nil => rfl
  | cons a as ih =>
    have hnext : i + 2 * spb + 2 * spb * as.length = i + 2 * spb * (as.length + 1) := by ring
    simp only [List.cons_append, traceBits, ih, hnext, List.length_cons]

theorem map_value_traceBits (spb : Nat) (t0 dt : Ts) (i : Nat) (bits : List Bool) :
    (traceBits spb t0 dt i bits).map (·.value) = bits := by
  induction bits generalizing i with
  | nil => rfl
  | cons b bits ih => rw [traceBits, List.map_cons, ih]

theorem head?_ts_traceBits (spb : Nat) (t0 dt : Ts) (i : Nat) {bits : List Bool} (h : bits ≠ []) :
    (traceBits spb t0 dt i bits).head?.map LogicalBit.ts = some (t0 + dt * BitVec.ofNat _ i) := by
  cases bits with
  | nil => exact absurd rfl h
  | cons => rfl

/-! ## A frame and its preamble (R171, R80) -/

/-- R171: a 1-bit of the preamble. -/
theorem Regs.acceptBit_preamble {r : Regs} (status : r.status = .decode) (hf : r.field = .pre) (t : Ts) :
    r.acceptBit true t = { r with ones := BitVec.ofNat 5 (min (r.ones.toNat + 1) 16) } := by
  have hones : (if Config.preambleMin ≤ r.ones.toNat then 16 else r.ones + 1) =
      BitVec.ofNat 5 (min (r.ones.toNat + 1) 16) := by
    split
    next h => rw [Nat.min_eq_right (h.trans (Nat.le_succ _))]; rfl
    next h =>
      have hlt : r.ones.toNat < 16 := Nat.lt_of_not_le h
      rw [Nat.min_eq_left hlt]
      bv_omega
  simp only [Regs.acceptBit, status, Regs.acceptDecode, hf, Regs.acceptPre, if_true, hones]

/-- R171: the ones of a preamble, counted up to 16. -/
theorem Regs.Accepts.preamble {r : Regs} {bs : List LogicalBit} (hbs : ∀ b ∈ bs, b.value = true)
    (status : r.status = .decode) (free : r.frValid = false) (hf : r.field = .pre)
    (hones : r.ones.toNat ≤ 16) :
    Accepts r bs { r with ones := BitVec.ofNat 5 (min (r.ones.toNat + bs.length) 16) } := by
  induction bs generalizing r with
  | nil =>
    have hkept : BitVec.ofNat 5 (min (r.ones.toNat + 0) 16) = r.ones := by
      rw [Nat.add_zero, Nat.min_eq_left hones, BitVec.ofNat_toNat, BitVec.setWidth_eq]
    rw [List.length_nil, hkept]
    exact .nil r
  | cons b bs ih =>
    obtain ⟨hb, hrest⟩ := List.forall_mem_cons.mp hbs
    have hnext : (BitVec.ofNat 5 (min (r.ones.toNat + 1) 16)).toNat = min (r.ones.toNat + 1) 16 :=
      Nat.mod_eq_of_lt (by omega)
    have hsum : min (min (r.ones.toNat + 1) 16 + bs.length) 16 =
        min (r.ones.toNat + (bs.length + 1)) 16 := by omega
    refine .cons status free ?_
    rw [hb, acceptBit_preamble status hf]
    have h := ih (r := { r with ones := BitVec.ofNat 5 (min (r.ones.toNat + 1) 16) }) hrest status free
      hf (by rw [hnext]; exact Nat.min_le_right _ _)
    simpa only [hnext, hsum, List.length_cons] using h

theorem FrameSpec.length_bits (f : FrameSpec) : f.bits.length = f.p + 32 := by
  simp [FrameSpec.bits]

/-- The search for a frame, begun anew in a session without a mark. -/
structure Regs.CleanSearch (r : Regs) : Prop where
  status : r.status = .decode
  free : r.frValid = false
  field : r.field = .pre
  ones : r.ones = 0
  cmdErr : r.cmdErr = false
  violSeen : r.violSeen = false

namespace Regs.CleanSearch

variable {r : Regs}

/-- A frame of R95 is decoded whole, with the timestamp of its start 0-bit. -/
theorem accepts_frame (h : r.CleanSearch) {f : FrameSpec} (hp : 16 ≤ f.p) (spb : Nat) (t0 dt : Ts)
    (i : Nat) :
    Accepts r (traceBits spb t0 dt i f.bits)
      (r.withFrame (some (t0 + dt * BitVec.ofNat _ (i + 2 * spb * f.p))) f.op f.phy f.reg f.data) := by
  have hvalues := map_value_traceBits spb t0 dt i (List.replicate f.p true)
  have hlen : (traceBits spb t0 dt i (List.replicate f.p true)).length = f.p := by
    simpa using congrArg List.length hvalues
  have hones : ∀ b ∈ traceBits spb t0 dt i (List.replicate f.p true), b.value = true := fun b hb =>
    List.eq_of_mem_replicate (hvalues ▸ List.mem_map_of_mem hb)
  have hpre := Accepts.preamble hones h.status h.free h.field (by simp [h.ones])
  have hbody := Accepts.body (map_value_traceBits spb t0 dt (i + 2 * spb * f.p)
      (bodyBits f.op f.phy f.reg f.ta f.data))
    (r := { r with ones := 16 }) h.status h.free h.field le_rfl
  have hfull : min (r.ones.toNat + f.p) 16 = 16 :=
    Nat.min_eq_right (hp.trans (Nat.le_add_left _ _))
  rw [hlen, hfull] at hpre
  rw [head?_ts_traceBits _ _ _ _ (List.ne_nil_of_length_pos (by simp))] at hbody
  rw [FrameSpec.bits, traceBits_append, List.length_replicate]
  exact hpre.append hbody

/-- PULL of one frame of R95. -/
theorem foldl_frame (h : r.CleanSearch) {f : FrameSpec} (hp : 16 ≤ f.p) (spb : Nat) (t0 dt : Ts)
    (i : Nat) (frames : List Frame) :
    ∃ r' : Regs, r'.CleanSearch ∧ (traceBits spb t0 dt i f.bits).foldl pullBit (frames, r) =
      (frames ++ [⟨some (t0 + dt * BitVec.ofNat _ (i + 2 * spb * f.p)), f.op, f.phy, f.reg, f.data⟩],
        r') := by
  have hne : traceBits spb t0 dt i f.bits ≠ [] := by
    have hlen := congrArg List.length (map_value_traceBits spb t0 dt i f.bits)
    rw [List.length_map, FrameSpec.length_bits] at hlen
    exact List.ne_nil_of_length_pos (by omega)
  rw [(h.accepts_frame hp spb t0 dt i).foldl_pullBit hne, Regs.handOver_of_waiting rfl]
  refine ⟨_, ?_, rfl⟩
  exact ⟨h.status, rfl, rfl, rfl, h.cmdErr, h.violSeen⟩

/-- PULL of back-to-back frames of R95, from record number `i` on. -/
theorem foldl_frames (h : r.CleanSearch) {fs : List FrameSpec} (hp : ∀ f ∈ fs, 16 ≤ f.p) (spb : Nat)
    (t0 dt : Ts) (i : Nat) (frames : List Frame) :
    ∃ r', r'.CleanSearch ∧
      (traceBits spb t0 dt i (fs.flatMap FrameSpec.bits)).foldl pullBit (frames, r) =
        (frames ++ List.zipWith (fun f ts => (⟨some ts, f.op, f.phy, f.reg, f.data⟩ : Frame)) fs
          (Claims.startTimes spb t0 dt i fs), r') := by
  induction fs generalizing r i frames with
  | nil => exact ⟨r, h, by simp [traceBits]⟩
  | cons f fs ih =>
    obtain ⟨hf, hfs⟩ := List.forall_mem_cons.mp hp
    obtain ⟨r₁, h₁, hfirst⟩ := h.foldl_frame hf spb t0 dt i frames
    obtain ⟨r₂, h₂, hrest⟩ := ih h₁ hfs (i + 2 * spb * (f.p + 32)) _
    refine ⟨r₂, h₂, ?_⟩
    rw [List.flatMap_cons, traceBits_append, List.foldl_append, hfirst, FrameSpec.length_bits, hrest]
    simp [Claims.startTimes]

theorem endOfStream_status (h : r.CleanSearch) :
    r.endOfStream = { r with status := .doneClean } := by
  simp [Regs.endOfStream, h.status, h.field, Regs.raise]

end Regs.CleanSearch

/-! ## The session on a capture (R94) -/

/-- START 1, r at reset (R141). -/
theorem hostTick_start (resync : Bool) (m : Memory) :
    hostTick (if resync then 0x63#8 else 0x61#8) { State.reset with mem := m } =
      { State.reset with mem := m, regs := Regs.reset.beginDecode true resync } :=
  hostTick_of_exec (i := .start true resync) rfl (by cases resync <;> decide) rfl

theorem Regs.CleanSearch.beginDecode (resync : Bool) :
    (Regs.reset.beginDecode true resync).CleanSearch :=
  ⟨rfl, rfl, rfl, rfl, rfl, rfl⟩

/-- A session on a capture, from reset: what PULL makes of the bits the capture yields. -/
theorem session_decodeSession (resync : Bool) {n : Nat} {m : Memory} (hn : 2 * m.size + 1 ≤ n) :
    (decodeSession resync n m).session =
      ((yieldedBits false none m.records).foldl pullBit
        ([], Regs.reset.beginDecode true resync)).map id Regs.endOfStream := by
  rw [decodeSession, hostTick_start, session_pullAll rfl rfl rfl hn]
  rfl

/-- Settles O48: the capture yields the frames' bits, PULL makes the frames of them, and the capture ends
in the search for the next one. -/
theorem capturedFramesRoundTrip : Obligations.CapturedFramesRoundTrip := by
  intro fs spb t0 dt resync n hp hspb m hn
  obtain ⟨r, hclean, hfold⟩ := (Regs.CleanSearch.beginDecode resync).foldl_frames hp spb t0 dt 0 []
  have hbits : yieldedBits false none m.records = traceBits spb t0 dt 0 (fs.flatMap FrameSpec.bits) :=
    yieldedBits_traceFrom hspb t0 dt 0 _ nofun
  have hsession := session_decodeSession resync hn
  rw [hbits, hfold, Prod.map_apply, hclean.endOfStream_status, List.nil_append] at hsession
  obtain ⟨hlog, hregs⟩ := Prod.mk.inj hsession
  exact ⟨hlog, congrArg Regs.status hregs, (congrArg Regs.cmdErr hregs).trans hclean.cmdErr,
    (congrArg Regs.violSeen hregs).trans hclean.violSeen⟩

end Sys2Proof.Machine

/-! # The edge detector (40_edge_detector.md): the one-sample step, raw reads, frame rows as NOP ticks and
what a capture yields -/

namespace Sys2Proof.Machine

/-! ## The one-sample step (R110, R111, R113) -/

theorem Regs.examining_iff (r : Regs) :
    r.examining = true ↔ r.status = .raw ∨ (r.status = .decode ∧ r.frValid = false) := by
  cases h : r.status <;> simp [Regs.examining, h]

theorem Regs.examining_eq_false {r : Regs} (raw : r.status ≠ .raw)
    (decode : ¬ (r.status = .decode ∧ r.frValid = false)) : r.examining = false :=
  Bool.eq_false_iff.mpr fun h => (r.examining_iff.mp h).elim raw decode

theorem State.yields_iff (s : State) (x : Sample) : s.regs.yields x = true ↔ Claims.Yields s x := by
  simp [Regs.yields, Claims.Yields]

theorem State.runTick_of_examines {s : State} {x : Sample} (h : Claims.Examines s x) :
    s.runTick = s.advanceOn (some x) := by
  obtain ⟨status, hread⟩ := h
  rw [State.runTick_of_examining (s.regs.examining_iff.mpr status), State.advance, hread]

/-- Settles O15: the sample is examined and skipped. -/
theorem skippedSampleMovesCursorOnly : Obligations.SkippedSampleMovesCursorOnly := by
  intro s x examines skipped
  have hskip : s.regs.yields x = false := Bool.eq_false_iff.mpr fun h => skipped ((s.yields_iff x).mp h)
  show Host.Outcome.next s.runTick = _
  rw [State.runTick_of_examines examines, State.advanceOn_skip hskip]
  rfl

/-! ## The bit monitor (R112, R124) -/

/-- The tick from `s` to `t` shows on `bit_out` the examined sample that yields, if there is one, and
records what it shows (log 9). -/
structure State.ShowsBit (s t : State) : Prop where
  bitOut : ∀ b : LogicalBit, t.bitOut = some b ↔
    ∃ x, Claims.Examines s x ∧ Claims.Yields s x ∧ b = ⟨x.dat, x.ts⟩
  bitLog : t.bitLog = s.bitLog ++ t.bitOut.toList

namespace State.ShowsBit

variable {s t : State}

theorem of_no_yield (h : ∀ x, Claims.Examines s x → ¬ Claims.Yields s x) (out : t.bitOut = none)
    (log : t.bitLog = s.bitLog) : s.ShowsBit t where
  bitOut b := by
    rw [out]
    exact ⟨nofun, fun ⟨x, examines, yields, _⟩ => absurd yields (h x examines)⟩
  bitLog := by rw [out, log]; exact (List.append_nil _).symm

theorem of_yield {x : Sample} (examines : Claims.Examines s x) (yields : Claims.Yields s x)
    (out : t.bitOut = some ⟨x.dat, x.ts⟩) (log : t.bitLog = s.bitLog ++ [⟨x.dat, x.ts⟩]) :
    s.ShowsBit t where
  bitOut b := by
    rw [out]
    constructor
    · rintro ⟨⟩
      exact ⟨x, examines, yields, rfl⟩
    · rintro ⟨y, ⟨-, hread⟩, -, rfl⟩
      obtain rfl : x = y := Option.some.inj (examines.2.symm.trans hread)
      rfl
  bitLog := by rw [out]; exact log

/-- Where the status calls for no sample, a tick that shows nothing. -/
theorem of_not_examining (h : s.regs.examining = false) (out : t.bitOut = none)
    (log : t.bitLog = s.bitLog) : s.ShowsBit t :=
  of_no_yield (fun _ examines => absurd (s.regs.examining_iff.mpr examines.1) (by simp [h])) out log

theorem runTick (s : State) : s.ShowsBit s.runTick := by
  cases he : s.regs.examining with
  | false => rw [State.runTick_of_not_examining he]; exact of_not_examining he rfl rfl
  | true =>
    cases hread : s.mem.read s.regs.pos with
    | none =>
      rw [State.runTick_of_examining he, State.advance, hread, State.advanceOn_none]
      exact of_no_yield (fun x examines => nomatch hread.symm.trans examines.2) rfl rfl
    | some x =>
      have examines : Claims.Examines s x := ⟨s.regs.examining_iff.mp he, hread⟩
      rw [State.runTick_of_examines examines]
      cases hy : s.regs.yields x with
      | true =>
        rw [State.advanceOn_yield hy]
        exact of_yield examines ((s.yields_iff x).mp hy) rfl rfl
      | false =>
        rw [State.advanceOn_skip hy]
        refine of_no_yield (fun y hexamines hyields => ?_) rfl rfl
        obtain rfl : x = y := Option.some.inj (hread.symm.trans hexamines.2)
        exact absurd ((s.yields_iff x).mpr hyields) (by simp [hy])

end State.ShowsBit

/-- A refused command shows what NOP shows (R202), and an accepted one examines nothing. -/
theorem CommandTick.showsBit {s t : State} (h : CommandTick s t) : s.ShowsBit t := by
  cases h with
  | nop => exact .runTick s
  | refused =>
    obtain ⟨out, log⟩ := State.ShowsBit.runTick { s with regs := s.regs.markCmdErr }
    exact ⟨out, log⟩
  | setph p idle => exact .of_not_examining (by simp [Regs.examining, idle]) rfl rfl
  | rdbits c idle => exact .of_not_examining (by simp [Regs.examining, idle]) rfl rfl
  | start b r idle => exact .of_not_examining (by simp [Regs.examining, idle]) rfl rfl
  | pop decode frame => exact .of_not_examining (by simp [Regs.examining, decode, frame]) rfl rfl

/-- R110 on registers is R110 on the sample memory (R43 (a), (b)). -/
theorem State.Inv.yields_iff {s : State} (h : s.Inv) (x : Sample) :
    Claims.Yields s x ↔ x.clk = s.regs.phase ∧
      (s.regs.pos = 0 ∨ ∃ y, s.mem.read (s.regs.pos - 1) = some y ∧ y.clk ≠ s.regs.phase) := by
  refine and_congr_right fun _ => or_congr_right' fun hpos => ?_
  have hlt : s.regs.pos - 1 < s.mem.size := by
    have hle := h.posLe
    omega
  obtain ⟨y, hy⟩ : ∃ y, s.mem.read (s.regs.pos - 1) = some y := ⟨_, List.getElem?_eq_getElem hlt⟩
  rw [h.prevClk y (Nat.pos_of_ne_zero hpos) hy, hy]
  exact ⟨fun hne => ⟨y, rfl, hne⟩, fun ⟨_, rfl, hne⟩ => hne⟩

/-- Settles O16: a command tick shows the examined sample that yields, and a reset tick shows nothing. -/
theorem bitMonitor : Obligations.BitMonitor := by
  intro s t w rest hinv hstep
  constructor
  · intro input
    cases step_cases hstep with
    | reset w' c rest' input' => cases input.symm.trans input'
    | body rest' input' => cases input.symm.trans input'
    | command tick =>
      obtain ⟨out, log⟩ := tick.showsBit
      refine ⟨fun b => (out b).trans (exists_congr fun x => and_congr_right fun _ => ?_), log⟩
      exact and_comm.trans (and_congr_right fun _ => hinv.yields_iff x)
  · intro c input
    rw [step_of_reset input] at hstep
    obtain ⟨-, -, out, -, log, -⟩ := State.resetTick_cases hstep
    exact ⟨out, log⟩

/-! ## The command ticks (R115, R117, R119) -/

/-- Settles O17, by the acceptance in ST_IDLE. -/
theorem setphWritesPhase : Obligations.SetphWritesPhase := by
  intro s p idle
  show execSetph p s = _
  rw [execSetph, if_pos idle]
  rfl

/-- R117: both RDBITS rows, accepted in ST_IDLE. -/
theorem exec_readBits {s : State} {i : Instr} {c : BitVec 5} (idle : s.regs.status = .idle)
    (row : (i = .rdbits c ∧ c.toNat ≤ 15) ∨ (i = .rdbits16 ∧ c = 16)) :
    exec i s = .next (s.withRegs (s.regs.beginRaw c)) := by
  obtain ⟨rfl, count⟩ | ⟨rfl, rfl⟩ := row
  · exact congrArg _ (if_pos ⟨idle, count.trans (by decide)⟩)
  · exact congrArg _ (if_pos ⟨idle, by decide⟩)

/-- The counts 1 to 16. -/
theorem rdbits_row_of_pos {i : Instr} {c : BitVec 5}
    (row : (i = .rdbits c ∧ 1 ≤ c.toNat ∧ c.toNat ≤ 15) ∨ (i = .rdbits16 ∧ c = 16)) :
    1 ≤ c.toNat ∧ ((i = .rdbits c ∧ c.toNat ≤ 15) ∨ (i = .rdbits16 ∧ c = 16)) := by
  obtain ⟨hi, one, count⟩ | ⟨hi, rfl⟩ := row
  · exact ⟨one, .inl ⟨hi, count⟩⟩
  · exact ⟨by decide, .inr ⟨hi, rfl⟩⟩

theorem Regs.beginRaw_of_pos {c : BitVec 5} (hc : 1 ≤ c.toNat) (r : Regs) :
    r.beginRaw c =
      { r with
        rawCnt := c, need := c, shreg := 0, firstTs := none, firstTsValid := false,
        rawStatus := .none, status := .raw } :=
  if_neg (by rintro rfl; exact absurd hc (by decide))

/-- Settles O18, for both rows at once. -/
theorem rdbitsBeginsRawRead : Obligations.RdbitsBeginsRawRead := by
  intro s i c idle row
  obtain ⟨one, row⟩ := rdbits_row_of_pos row
  rw [exec_readBits idle row, Regs.beginRaw_of_pos one]
  rfl

/-- Settles O19: count 0 is accepted and begins no read. -/
theorem rdbitsZero : Obligations.RdbitsZero := fun _ idle =>
  exec_readBits idle (.inl ⟨rfl, by decide⟩)

/-! ## The end and the bits of a raw read (R117, R120) -/

/-- R117, AcceptBit in ST_RAW, with the registers of the bit that is the last. -/
theorem Regs.acceptBit_raw {r : Regs} (raw : r.status = .raw) (hneed : 1 ≤ r.need.toNat) (b : Bool)
    (t : Ts) :
    r.acceptBit b t =
      { r with
        firstTs := if r.firstTsValid then r.firstTs else some t
        firstTsValid := true
        shreg := Claims.shifted r.shreg b
        need := BitVec.ofNat 5 (r.need.toNat - 1)
        status := if r.need.toNat = 1 then .idle else .raw
        rawStatus := if r.need.toNat = 1 then .ok else r.rawStatus } := by
  have hpred : r.need - 1 = BitVec.ofNat 5 (r.need.toNat - 1) := by bv_omega
  have hshift : shiftIn r.shreg b = Claims.shifted r.shreg b := shiftIn_eq_ofNat r.shreg b
  simp only [Regs.acceptBit, raw, Regs.acceptRaw, Regs.latchFirstTs_eq, hshift]
  by_cases hlast : r.need.toNat = 1
  · have hzero : r.need - 1 = 0 := by bv_omega
    rw [if_pos hzero, if_pos hlast, if_pos hlast, hpred]
  · have hmore : r.need - 1 ≠ 0 := by bv_omega
    rw [if_neg hmore, if_neg hlast, if_neg hlast, hpred]

/-- Settles O20: the sample is examined, it yields, and its bit is accepted. -/
theorem rawBitAccepted : Obligations.RawBitAccepted := by
  intro s x raw hread yields hneed
  show Host.Outcome.next s.runTick = _
  rw [State.runTick_of_examines ⟨.inl raw, hread⟩, State.advanceOn_yield ((s.yields_iff x).mpr yields),
    Regs.acceptBit_raw (r := s.regs.examine x) raw hneed]
  rfl

/-- R111 at the end of the capture. -/
theorem State.runTick_of_ahead_eq_nil {s : State} (examining : s.regs.examining = true)
    (h : s.ahead = []) : s.runTick = s.withRegs s.regs.endOfStream := by
  rw [State.runTick_of_examining examining, State.advance, State.read_of_ahead_eq_nil h,
    State.advanceOn_none]

theorem Regs.endOfStream_raw {r : Regs} (raw : r.status = .raw) :
    r.endOfStream = { r with status := .idle, rawStatus := .eos } := by
  simp [Regs.endOfStream, raw, Regs.raise]

/-- Settles O21: at N no record is ahead. -/
theorem rawEndOfStream : Obligations.RawEndOfStream := by
  intro s raw hend
  have hnil : s.ahead = [] := State.ahead_eq_nil ((s.mem.read_eq_none_iff _).mpr hend.ge)
  show Host.Outcome.next s.runTick = _
  rw [State.runTick_of_ahead_eq_nil (s.regs.examining_iff.mpr (.inl raw)) hnil,
    Regs.endOfStream_raw raw]
  rfl

/-! ## NOP ticks -/

theorem nops_succ (n : Nat) (s : State) : nops (n + 1) s = nops n s.runTick := rfl

theorem nops_add (m n : Nat) (s : State) : nops (m + n) s = nops n (nops m s) := by
  induction m generalizing s with
  | zero => rw [Nat.zero_add]; rfl
  | succ m ih => rw [Nat.succ_add, nops_succ, ih, nops_succ]

theorem nops_of_not_examining {s : State} (h : s.regs.examining = false) (n : Nat) :
    nops (n + 1) s = s.quiet := by
  induction n generalizing s with
  | zero => exact State.runTick_of_not_examining h
  | succ n ih =>
    rw [nops_succ, State.runTick_of_not_examining h]
    exact ih (s := s.quiet) h

theorem State.runTick_of_ahead_eq_cons {s : State} {x : Sample} {xs : List Sample}
    (examining : s.regs.examining = true) (h : s.ahead = x :: xs) :
    s.runTick = s.advanceOn (some x) :=
  State.runTick_of_examines ⟨s.regs.examining_iff.mp examining, (State.read_of_ahead_eq_cons h).1⟩

/-- The samples up to the one that yields the next bit, taken by one NOP each, are that bit taken. -/
theorem State.nops_eq_takeBit {s : State} {xs : List Sample} {b : LogicalBit} {j : Nat}
    (examining : s.regs.examining = true) (hxs : s.ahead = xs)
    (h : scanBits s.regs.phase s.regs.prevLevel xs 1 = some ([b], j)) :
    nops j s = s.takeBit b.value xs := by
  induction xs generalizing s j with
  | nil => cases h
  | cons x xs ih =>
    have hy := s.regs.yields_eq_yieldsAfter x
    have htick := State.runTick_of_ahead_eq_cons examining hxs
    cases hyield : yieldsAfter s.regs.phase s.regs.prevLevel x with
    | true =>
      simp only [scanBits, hyield, if_true, Option.map_some, Option.some.injEq, Prod.mk.injEq,
        List.cons.injEq, and_true] at h
      obtain ⟨rfl, rfl⟩ := h
      rw [State.takeBit, if_pos (hy.trans hyield)]
      exact htick
    | false =>
      have hskip := hy.trans hyield
      simp only [scanBits, hyield, Bool.false_eq_true, if_false, Option.map_eq_some_iff] at h
      obtain ⟨⟨bs, j'⟩, hrest, heq⟩ := h
      cases heq
      have hahead := State.ahead_advanceOn hxs
      rw [State.takeBit, hskip, if_neg Bool.false_ne_true, nops_succ, htick]
      rw [State.advanceOn_skip hskip] at hahead ⊢
      exact ih examining hahead (by rwa [← Regs.prevLevel_examine x s.regs] at hrest)

theorem State.nops_eq_deliver {s : State} {b : LogicalBit} {j : Nat}
    (examining : s.regs.examining = true) (h : s.readBits 1 = some ([b], j)) :
    nops j s = s.deliver b.value := by
  rw [State.deliver, if_pos examining]
  exact State.nops_eq_takeBit examining rfl h

/-! ## Frame rows (log 5) -/

/-- Bits that pass the block unseen (R111). -/
theorem State.deliverAll_of_not_examining {s : State} (h : s.regs.examining = false) {bits : List Bool}
    (hbits : bits ≠ []) : s.deliverAll bits = s.quiet := by
  induction bits generalizing s with
  | nil => exact absurd rfl hbits
  | cons b bits ih =>
    have hdeliver : s.deliver b = s.quiet := if_neg (by simp [h])
    rw [State.deliverAll, List.foldl_cons, hdeliver]
    cases bits with
    | nil => rfl
    | cons b' bits => exact ih (s := s.quiet) h (List.cons_ne_nil _ _)

theorem bodyBits_ne_nil (op : BitVec 2) (phy reg : BitVec 5) (ta : BitVec 2) (data : BitVec 16) :
    bodyBits op phy reg ta data ≠ [] :=
  List.ne_nil_of_length_pos (by simp)

/-- Settles O39: the body's bits pass unseen. -/
theorem framePassesUnexamined : Obligations.FramePassesUnexamined := by
  intro s op phy reg ta data raw decode
  rw [exec_frameOf, State.deliverAll_of_not_examining (Regs.examining_eq_false raw decode)
    (bodyBits_ne_nil op phy reg ta data)]
  rfl

/-- The bits ahead, delivered one by one, are one NOP for each record that holds them: while samples are
examined bit by bit, and from where they no longer are both change nothing more. -/
theorem State.deliverAll_eq_nops {s : State} {bs : List LogicalBit} {k : Nat}
    (h : s.readBits bs.length = some (bs, k)) : s.deliverAll (bs.map (·.value)) = nops k s := by
  induction bs generalizing s k with
  | nil =>
    obtain rfl : 0 = k := by simpa [State.readBits, scanBits] using h
    rfl
  | cons b bs ih =>
    obtain ⟨_, _, j, k, heq, rfl, hj, hfirst, hlater⟩ := scanBits_succ h
    cases heq
    cases examining : s.regs.examining with
    | false =>
      obtain ⟨n, hn⟩ := Nat.exists_eq_add_of_le' (hj.trans (Nat.le_add_right j k))
      rw [hn, nops_of_not_examining examining,
        State.deliverAll_of_not_examining examining (bits := (b :: bs).map (·.value)) (by simp)]
    | true =>
      have hphase := (Regs.acceptBit_same b.value b.ts s.regs).phase
      have hread : (s.deliver b.value).readBits bs.length = some (bs, k) := by
        rw [State.deliver_eq_received examining hfirst, State.readBits_received hj hphase, hlater]
      rw [nops_add, State.nops_eq_deliver examining hfirst, ← ih hread]
      rfl

/-- Settles O38: a frame row delivers the bits of its body. -/
theorem frameRowIsNopTicks : Obligations.FrameRowIsNopTicks := by
  intro s op phy reg ta data bs k ⟨hread, hbits⟩
  have hlen : bs.length = 32 := by simpa using congrArg List.length hbits
  rw [exec_frameOf, ← hbits, State.deliverAll_eq_nops (hlen ▸ hread)]

/-! ## The value of recovered bits (R82, R118) -/

theorem value_append_singleton (bs : List LogicalBit) (b : LogicalBit) :
    Claims.value (bs ++ [b]) = 2 * Claims.value bs + b.value.toNat := by
  simp [Claims.value]

theorem value_lt (bs : List LogicalBit) : Claims.value bs < 2 ^ bs.length := by
  induction bs using List.reverseRecOn with
  | nil => decide
  | append_singleton bs b ih =>
    have hb := b.value.toNat_le
    rw [value_append_singleton, List.length_append, List.length_singleton, Nat.pow_succ]
    omega

/-- Bit `length - 1 - k` of the value is the bit at index `k`. -/
theorem map_testBit_value (bs : List LogicalBit) :
    (List.range bs.length).map (fun k => (Claims.value bs).testBit (bs.length - 1 - k)) =
      bs.map (·.value) := by
  induction bs using List.reverseRecOn with
  | nil => rfl
  | append_singleton bs b ih =>
    have hb := b.value.toNat_le
    have hdiv : (2 * Claims.value bs + b.value.toNat) / 2 = Claims.value bs := by omega
    rw [value_append_singleton, List.length_append, List.length_singleton, List.range_succ,
      List.map_append, List.map_append, ← ih]
    congr 1
    · refine List.map_congr_left fun k hk => ?_
      have hidx : bs.length + 1 - 1 - k = bs.length - 1 - k + 1 := by
        have hlt := List.mem_range.mp hk
        omega
      rw [hidx, Nat.testBit_succ, hdiv]
    · cases hv : b.value <;> simp [hv, Nat.testBit_zero]

/-! ## Raw reads (R116, R117) -/

/-- The registers of a raw read of `c` bits that began in `r` and has recovered `bs`. -/
def Regs.rawRead (c : BitVec 5) (bs : List LogicalBit) (r : Regs) : Regs :=
  { r with
    rawCnt := c
    need := BitVec.ofNat 5 (c.toNat - bs.length)
    shreg := BitVec.ofNat 16 (Claims.value bs)
    firstTs := bs.head?.map (·.ts)
    firstTsValid := !bs.isEmpty
    rawStatus := .none
    status := .raw }

/-- R117: the last bit ends the read. -/
def Regs.rawOk (r : Regs) : Regs := { r with status := .idle, rawStatus := .ok }

theorem Regs.beginRaw_eq_rawRead {c : BitVec 5} (hc : 1 ≤ c.toNat) (r : Regs) :
    r.beginRaw c = r.rawRead c [] := by
  simp [Regs.beginRaw_of_pos hc, Regs.rawRead, Claims.value]

/-- A further bit of a raw read. -/
theorem Regs.acceptBit_rawRead {c : BitVec 5} {as : List LogicalBit} (h : as.length < c.toNat)
    (b : LogicalBit) (r : Regs) :
    (r.rawRead c as).acceptBit b.value b.ts =
      if as.length + 1 = c.toNat then (r.rawRead c (as ++ [b])).rawOk else r.rawRead c (as ++ [b]) := by
  have hneed : (r.rawRead c as).need.toNat = c.toNat - as.length :=
    Nat.mod_eq_of_lt (lt_of_le_of_lt (Nat.sub_le _ _) c.isLt)
  have hshift : Claims.shifted (r.rawRead c as).shreg b.value =
      BitVec.ofNat 16 (Claims.value (as ++ [b])) := by
    apply BitVec.eq_of_toNat_eq
    simp [Regs.rawRead, Claims.shifted, value_append_singleton, Nat.add_mod, Nat.mul_mod]
  have hfirst : (if (r.rawRead c as).firstTsValid then (r.rawRead c as).firstTs else some b.ts) =
      (as ++ [b]).head?.map (·.ts) := by cases as <;> rfl
  rw [Regs.acceptBit_raw rfl (by omega), hneed, hshift, hfirst]
  by_cases hlast : as.length + 1 = c.toNat
  · rw [if_pos hlast, if_pos (by omega), if_pos (by omega)]
    simp [Regs.rawRead, Regs.rawOk, Nat.sub_sub]
  · rw [if_neg hlast, if_neg (by omega), if_neg (by omega)]
    simp [Regs.rawRead, Nat.sub_sub]

/-- The read function recovers as many bits as it is asked for. -/
theorem length_of_scanBits {phase : Bool} {prev : Option Bool} {xs : List Sample} {n k : Nat}
    {bs : List LogicalBit} (h : scanBits phase prev xs n = some (bs, k)) : bs.length = n := by
  induction n generalizing prev xs bs k with
  | zero =>
    obtain ⟨rfl, -⟩ : [] = bs ∧ 0 = k := by simpa [scanBits] using h
    rfl
  | succ n ih =>
    obtain ⟨b, bs', j, k', rfl, -, -, -, hlater⟩ := scanBits_succ h
    rw [List.length_cons, ih hlater]

/-- The read function fails where the records yield fewer bits. -/
theorem length_yieldedBits_lt {phase : Bool} {prev : Option Bool} {xs : List Sample} {n : Nat}
    (h : scanBits phase prev xs n = none) : (yieldedBits phase prev xs).length < n := by
  induction xs generalizing prev n with
  | nil =>
    cases n with
    | zero => cases h
    | succ n => exact Nat.succ_pos n
  | cons x xs ih =>
    cases n with
    | zero => cases h
    | succ n =>
      cases hy : yieldsAfter phase prev x with
      | true =>
        simp only [scanBits, hy, if_true, Option.map_eq_none_iff] at h
        rw [yieldedBits, if_pos hy]
        exact Nat.succ_lt_succ (ih h)
      | false =>
        simp only [scanBits, hy, Bool.false_eq_true, if_false, Option.map_eq_none_iff] at h
        rw [yieldedBits, hy, if_neg Bool.false_ne_true]
        exact ih h

/-- A raw read with bits yet to come recovers what the read function does and ends (R116, R117). -/
theorem nops_rawRead {s : State} {r : Regs} {c : BitVec 5} {as bs : List LogicalBit} {b : LogicalBit}
    {k : Nat} (h : s.regs = r.rawRead c as) (hlen : as.length + (bs.length + 1) = c.toNat)
    (hread : s.readBits (bs.length + 1) = some (b :: bs, k)) :
    nops k s = s.received (b :: bs) k (r.rawRead c (as ++ b :: bs)).rawOk := by
  induction bs generalizing s r as b k with
  | nil =>
    have examining : s.regs.examining = true := by rw [h]; rfl
    rw [State.nops_eq_deliver examining hread, State.deliver_eq_received examining hread, h,
      Regs.acceptBit_rawRead (Nat.lt_of_succ_le hlen.le), if_pos (show as.length + 1 = _ from hlen)]
  | cons b' bs ih =>
    rw [List.length_cons] at hlen hread
    have examining : s.regs.examining = true := by rw [h]; rfl
    obtain ⟨_, _, j, k, heq, rfl, hj, hfirst, hlater⟩ := scanBits_succ hread
    cases heq
    have haccept : s.regs.acceptBit b.value b.ts = r.rawRead c (as ++ [b]) := by
      rw [h, Regs.acceptBit_rawRead (by omega), if_neg (by omega)]
    have hphase : (r.rawRead c (as ++ [b])).phase = s.regs.phase := (congrArg Regs.phase h).symm
    have hlen' : (as ++ [b]).length + (bs.length + 1) = c.toNat := by
      rw [List.length_append, List.length_singleton]
      omega
    rw [nops_add, State.nops_eq_deliver examining hfirst, State.deliver_eq_received examining hfirst,
      haccept, ih (r := r.moveTo (s.regs.pos + j) s.regs.phase) rfl hlen'
        ((State.readBits_received hj hphase [b] _).trans hlater), List.append_assoc]
    exact State.received_received hphase b b' bs j k
      (r.rawRead c (as ++ b :: b' :: bs)).rawOk _ _

/-- What the record at the cursor yields (R110). -/
def Regs.bitOf (r : Regs) (x : Sample) : List LogicalBit :=
  if r.yields x then [⟨x.dat, x.ts⟩] else []

theorem Regs.bitOf_append_yieldedBits (r : Regs) (x : Sample) (xs : List Sample) :
    yieldedBits r.phase r.prevLevel (x :: xs) = r.bitOf x ++ yieldedBits r.phase (some x.clk) xs := by
  rw [yieldedBits, ← r.yields_eq_yieldsAfter, Regs.bitOf]
  split <;> rfl

/-- One record of a raw read, if it is not the last one needed. -/
theorem State.advanceOn_rawRead {s : State} {r : Regs} {c : BitVec 5} {as : List LogicalBit} {x : Sample}
    (h : s.regs = r.rawRead c as) (hlen : (as ++ s.regs.bitOf x).length < c.toNat) :
    (s.advanceOn (some x)).regs =
        (r.moveTo (s.regs.pos + 1) x.clk).rawRead c (as ++ s.regs.bitOf x) ∧
      (s.advanceOn (some x)).bitLog = s.bitLog ++ s.regs.bitOf x := by
  cases hy : s.regs.yields x with
  | true =>
    have hbit : s.regs.bitOf x = [⟨x.dat, x.ts⟩] := if_pos hy
    rw [hbit, List.length_append, List.length_singleton] at hlen
    have haccept : s.regs.acceptBit x.dat x.ts = r.rawRead c (as ++ [⟨x.dat, x.ts⟩]) := by
      rw [h, Regs.acceptBit_rawRead (Nat.lt_of_succ_lt hlen) ⟨x.dat, x.ts⟩, if_neg hlen.ne]
    rw [State.advanceOn_yield hy, Regs.examine_eq_moveTo, Regs.acceptBit_moveTo, haccept, hbit]
    exact ⟨rfl, rfl⟩
  | false =>
    have hbit : s.regs.bitOf x = [] := if_neg (by simp [hy])
    rw [State.advanceOn_skip hy, hbit, List.append_nil, List.append_nil, Regs.examine_eq_moveTo]
    exact ⟨congrArg (Regs.moveTo (s.regs.pos + 1) x.clk) h, rfl⟩

/-- A raw read over records that yield too few bits runs to the end of the capture, one record a tick,
and ends there (R116, R120). -/
theorem nops_rawRead_runsOut {s : State} {r : Regs} {c : BitVec 5} {as bs : List LogicalBit}
    {xs : List Sample} (h : s.regs = r.rawRead c as) (hxs : s.ahead = xs)
    (hbs : yieldedBits s.regs.phase s.regs.prevLevel xs = bs) (hlen : as.length + bs.length < c.toNat) :
    ∃ level, (nops (xs.length + 1) s).regs =
        { (r.rawRead c (as ++ bs)).moveTo (s.regs.pos + xs.length) level with
          status := .idle, rawStatus := .eos } ∧
      (nops (xs.length + 1) s).bitLog = s.bitLog ++ bs := by
  have raw : s.regs.status = .raw := congrArg Regs.status h
  have examining : s.regs.examining = true := s.regs.examining_iff.mpr (.inl raw)
  induction xs generalizing s r as bs with
  | nil =>
    obtain rfl : [] = bs := hbs
    have htick : nops 1 s = s.withRegs { s.regs with status := .idle, rawStatus := .eos } := by
      rw [← Regs.endOfStream_raw raw]
      exact State.runTick_of_ahead_eq_nil examining hxs
    refine ⟨s.regs.prevClk, ?_⟩
    rw [List.length_nil, htick, List.append_nil, List.append_nil]
    exact ⟨congrArg (fun g : Regs => { g with status := .idle, rawStatus := .eos }) (by rw [h]; rfl), rfl⟩
  | cons x xs ih =>
    rw [Regs.bitOf_append_yieldedBits] at hbs
    have hlength := congrArg List.length hbs
    rw [List.length_append] at hlength
    obtain ⟨hregs, hlog⟩ := State.advanceOn_rawRead (x := x) h (by rw [List.length_append]; omega)
    have hphase := (s.advanceOn_some_same x).phase
    have hrest : yieldedBits (s.advanceOn (some x)).regs.phase (s.advanceOn (some x)).regs.prevLevel xs =
        yieldedBits s.regs.phase (some x.clk) xs := by
      rw [s.advanceOn_some_prevLevel, hphase]
      rfl
    have raw' : (s.advanceOn (some x)).regs.status = .raw := congrArg Regs.status hregs
    obtain ⟨level, hend, hbits⟩ := ih hregs (State.ahead_advanceOn hxs) hrest
      (by rw [List.length_append]; omega) raw' ((Regs.examining_iff _).mpr (.inl raw'))
    rw [List.length_cons, nops_succ, State.runTick_of_ahead_eq_cons examining hxs]
    refine ⟨level, hend.trans ?_, ?_⟩
    · rw [List.append_assoc, hbs, (s.advanceOn_some_same x).pos, Regs.examine_pos, Nat.add_assoc,
        Nat.add_comm 1]
      rfl
    · rw [hbits, hlog, List.append_assoc, hbs]

/-- A read of one bit or more from ST_IDLE, completed (R117). -/
theorem nops_beginRaw {s : State} {c : BitVec 5} {bs : List LogicalBit} {k : Nat} (hc : 1 ≤ c.toNat)
    (hread : s.readBits c.toNat = some (bs, k)) :
    nops k (s.withRegs (s.regs.beginRaw c)) =
      s.received bs k (s.regs.rawRead c bs).rawOk := by
  have hlen := length_of_scanBits hread
  cases bs with
  | nil => exact absurd hc (by rw [← hlen]; decide)
  | cons b bs =>
    have h := nops_rawRead (s := s.withRegs (s.regs.rawRead c [])) (as := []) rfl
      ((Nat.zero_add _).trans hlen) (hread := hlen ▸ hread)
    rw [Regs.beginRaw_eq_rawRead hc]
    exact h

/-- Settles O22: the command tick begins the read, and the bits ahead complete it. -/
theorem rawReadIsReadBits : Obligations.RawReadIsReadBits := by
  intro s i c bs k idle row hread
  obtain ⟨one, row⟩ := rdbits_row_of_pos row
  have hlen := length_of_scanBits hread
  have hvalid : (!bs.isEmpty) = true := by cases bs with
    | nil => exact absurd one (by rw [← hlen]; decide)
    | cons => rfl
  rw [exec_readBits idle row, State.after, nops_beginRaw one hread]
  refine ⟨?_, rfl⟩
  simp only [State.received, Regs.moveTo, Regs.rawOk, Regs.rawRead, hvalid, hlen, Nat.sub_self]
  rfl

/-- Settles O23: the capture yields fewer bits than the read needs, which then runs to its end. -/
theorem rawReadRunsOut : Obligations.RawReadRunsOut := by
  intro s i c idle hpos row hread bs t
  obtain ⟨one, row⟩ := rdbits_row_of_pos row
  have hless : bs.length < c.toNat := length_yieldedBits_lt hread
  have hahead : s.ahead.length = s.mem.size - s.regs.pos := List.length_drop
  obtain ⟨level, hregs, hlog⟩ := nops_rawRead_runsOut (s := s.withRegs (s.regs.rawRead c [])) (as := [])
    (bs := bs) (xs := s.ahead) rfl rfl rfl (by simpa using hless)
  have ht : nops (s.ahead.length + 1) (s.withRegs (s.regs.rawRead c [])) = t := by
    simp only [t]
    rw [exec_readBits idle row, State.after, Regs.beginRaw_eq_rawRead one, hahead]
  rw [ht] at hregs hlog
  have hneed : (BitVec.ofNat 5 (c.toNat - bs.length)).toNat = c.toNat - bs.length :=
    Nat.mod_eq_of_lt (lt_of_le_of_lt (Nat.sub_le _ _) c.isLt)
  rw [hregs]
  refine ⟨rfl, rfl, ?_, rfl, ?_, rfl, rfl, rfl, hlog⟩
  · show s.regs.pos + s.ahead.length = _
    omega
  · show (BitVec.ofNat 5 (c.toNat - bs.length)).toNat + _ = _
    omega

/-- R118: the views of a register that holds the value of `bs`. -/
theorem Regs.rawViews {r : Regs} {c : BitVec 5} {bs : List LogicalBit} (hcnt : r.rawCnt = c)
    (hreg : r.shreg = BitVec.ofNat 16 (Claims.value bs)) (hlen : bs.length = c.toNat)
    (hc : c.toNat ≤ 16) :
    r.rawBits = bs.map (·.value) ∧ r.rawInt = Claims.value bs ∧ r.shreg.toNat < 2 ^ c.toNat := by
  have hlt : Claims.value bs < 2 ^ c.toNat := hlen ▸ value_lt bs
  have hvalue : r.shreg.toNat = Claims.value bs := by
    rw [hreg]
    exact Nat.mod_eq_of_lt (hlt.trans_le (Nat.pow_le_pow_right (by decide) hc))
  refine ⟨?_, ?_, hvalue ▸ hlt⟩
  · rw [← map_testBit_value, hlen, Regs.rawBits, hcnt]
    simp only [BitVec.getLsbD, hvalue]
  · rw [Regs.rawInt, hcnt, hvalue, Nat.mod_eq_of_lt hlt]

/-- Settles O24: a completed read leaves the value of its bits in `shreg`, and so does count 0. -/
theorem rawViewsShowTheBits : Obligations.RawViewsShowTheBits := by
  intro s i c bs k idle row hread t
  have hc : c.toNat ≤ 16 := by
    obtain ⟨-, count⟩ | ⟨-, rfl⟩ := row
    · omega
    · decide
  have hlen := length_of_scanBits hread
  have ht : t = nops k (s.withRegs (s.regs.beginRaw c)) := by
    simp only [t]
    rw [exec_readBits idle row, State.after]
  obtain hzero | one := Nat.eq_zero_or_pos c.toNat
  · obtain rfl : c = 0 := BitVec.eq_of_toNat_eq hzero
    obtain ⟨rfl, rfl⟩ : [] = bs ∧ 0 = k := by simpa [State.readBits, scanBits] using hread
    rw [ht]
    exact Regs.rawViews rfl rfl hlen hc
  · rw [ht, nops_beginRaw one hread]
    exact Regs.rawViews rfl rfl hlen hc

/-! ## What a capture yields (R112, R114, R121) -/

/-- Settles O49: at the inserted record the clock has the level of the record before it. -/
theorem oversamplingInvariance : Obligations.OversamplingInvariance := by
  intro phase before after x y hclk
  generalize none = prev
  induction before generalizing prev with
  | nil =>
    have hinserted : yieldedBits phase (some x.clk) (y :: after) = yieldedBits phase (some x.clk) after :=
      yieldedBits_same_level (xs := [y]) (by simpa using hclk) after
    rw [List.nil_append, List.nil_append, yieldedBits, hinserted]
    rfl
  | cons z before ih => rw [List.cons_append, List.cons_append, yieldedBits, yieldedBits, ih]

/-- Settles O50: a session is what PULL makes of the bits the capture yields. -/
theorem decodeDependsOnYieldedBitsOnly : Obligations.DecodeDependsOnYieldedBitsOnly := by
  intro m m' resync n n' hbits hn hn'
  have hsession : (decodeSession resync n m).session = (decodeSession resync n' m').session := by
    rw [session_decodeSession resync hn, session_decodeSession resync hn', hbits]
  obtain ⟨hlog, hregs⟩ := Prod.mk.inj hsession
  have hstatus := congrArg Regs.status hregs
  exact ⟨hlog, hstatus⟩

end Sys2Proof.Machine

/-! # The deserializer (41_deserializer.md): START and POP, the bits of the counted fields, the end of a
decode, and PULL against the big-step decoder -/

namespace Sys2Proof.Machine

/-! ## START and POP (R141, R150) -/

/-- R141: START, accepted in ST_IDLE at phase 0. -/
theorem execStart_idle {s : State} (idle : s.regs.status = .idle) (phase : s.regs.phase = false)
    (b r : Bool) : execStart b r s = .next (s.withRegs (s.regs.beginDecode b r)) :=
  if_pos ⟨idle, phase⟩

/-- Settles O25, by the acceptance of START. -/
theorem startBeginsDecode : Obligations.StartBeginsDecode := fun _ r idle phase =>
  execStart_idle idle phase true r

/-- Settles O26, by the acceptance of START. -/
theorem startWithoutBroadcom : Obligations.StartWithoutBroadcom := fun _ r idle phase =>
  execStart_idle idle phase false r

/-- Settles O27, by the acceptance of POP. -/
theorem popHandsOverFrame : Obligations.PopHandsOverFrame := fun _ status frame =>
  execPop_waiting status frame

/-! ## One bit of a decode (R142 to R144) -/

/-- A tick that recovers a bit of a decode accepts it and moves the cursor (R111, R142). -/
theorem exec_nop_of_bitIn {s : State} {f : FrameField} {x : Sample} (h : Claims.BitIn f s x) :
    exec .nop s = .next (Claims.afterBit s x (s.regs.acceptBit x.dat x.ts)) := by
  obtain ⟨status, free, -, hread, yields⟩ := h
  show Host.Outcome.next s.runTick = _
  rw [State.runTick_of_examines ⟨.inr ⟨status, free⟩, hread⟩,
    State.advanceOn_yield ((s.yields_iff x).mpr yields), Regs.examine_eq_moveTo, Regs.acceptBit_moveTo]
  rfl

/-- R143, for a bit that is not its field's last. -/
theorem Regs.acceptCounted_of_two_le {r : Regs} (hneed : 2 ≤ r.need.toNat) (b : Bool) :
    r.acceptCounted b =
      { r with shreg := Claims.shifted r.shreg b, need := BitVec.ofNat 5 (r.need.toNat - 1) } := by
  have hmore : r.need - 1 ≠ 0 := by bv_omega
  have hpred : r.need - 1 = BitVec.ofNat 5 (r.need.toNat - 1) := by bv_omega
  rw [Regs.acceptCounted, if_neg hmore, hpred, shiftIn_eq_ofNat]
  rfl

/-- R144, for the bit that is its field's last. -/
theorem Regs.acceptCounted_of_last {r : Regs} (hneed : r.need = 1) (b : Bool) :
    r.acceptCounted b = r.completeField (Claims.shifted r.shreg b) := by
  have hlast : r.need - 1 = 0 := by rw [hneed]; rfl
  rw [Regs.acceptCounted, if_pos hlast, shiftIn_eq_ofNat]
  rfl

/-- Settles O28, by R143. -/
theorem countedBitShiftsIn : Obligations.CountedBitShiftsIn := by
  intro s x f hpre hst1 bit hneed
  have hbit := exec_nop_of_bitIn bit
  obtain ⟨status, -, rfl, -, -⟩ := bit
  rw [hbit, Regs.acceptBit_counted status hpre hst1, Regs.acceptCounted_of_two_le hneed]

/-- The last bit of a counted field completes it (R144). -/
theorem exec_nop_of_lastBit {s : State} {f : FrameField} {x : Sample} (bit : Claims.BitIn f s x)
    (hpre : f ≠ .pre) (hst1 : f ≠ .st1) (hneed : s.regs.need = 1) :
    exec .nop s = .next (Claims.afterBit s x
      ({ s.regs with field := f }.completeField (Claims.shifted s.regs.shreg x.dat))) := by
  have hbit := exec_nop_of_bitIn bit
  obtain ⟨status, -, rfl, -, -⟩ := bit
  rw [hbit, Regs.acceptBit_counted status hpre hst1, Regs.acceptCounted_of_last hneed]

/-- The low bits of a register, as the model takes them and as R144 does. -/
theorem extractLsb'_zero_eq_setWidth {m : Nat} (v : BitVec m) (n : Nat) :
    v.extractLsb' 0 n = v.setWidth n :=
  BitVec.eq_of_toNat_eq (by simp)

/-- Settles O29, row by row: the counted fields by R144, and the two transitions out of F_PRE and F_ST1 by
R172 and R174. -/
theorem fieldTransitionTable : Obligations.FieldTransitionTable := by
  intro s x v
  rw [extractLsb'_zero_eq_setWidth, extractLsb'_zero_eq_setWidth]
  refine ⟨fun bit => exec_nop_of_lastBit bit nofun nofun, fun bit => exec_nop_of_lastBit bit nofun nofun,
    fun bit => exec_nop_of_lastBit bit nofun nofun, fun bit => exec_nop_of_lastBit bit nofun nofun,
    fun bit => exec_nop_of_lastBit bit nofun nofun, fun bit zero ones => ?_, fun bit one => ?_⟩
  · have hbit := exec_nop_of_bitIn bit
    obtain ⟨status, -, hf, -, -⟩ := bit
    rw [hbit, zero, Regs.acceptBit_start status hf ones]
  · have hbit := exec_nop_of_bitIn bit
    obtain ⟨status, -, hf, -, -⟩ := bit
    rw [hbit, one, Regs.acceptBit_st1 status hf]
    rfl

/-! ## The stall and the end of a decode (R145, R146) -/

/-- Settles O30: while a frame waits no sample is examined. -/
theorem stallHoldsEverything : Obligations.StallHoldsEverything := by
  intro s n status frame
  have stalled : s.regs.examining = false := by simp [Regs.examining, status, frame]
  exact nops_of_not_examining stalled n

/-- R146: which end the end of the capture is. -/
theorem Regs.endOfStream_decode {r : Regs} (status : r.status = .decode) :
    r.endOfStream = { r with status := if r.field = .pre then .doneClean else .doneTrunc } := by
  simp only [Regs.endOfStream, status]
  split <;> rfl

/-- Settles O31: at N no record is ahead. -/
theorem endOfStreamWhileDecoding : Obligations.EndOfStreamWhileDecoding := by
  intro s status free hend
  have hnil : s.ahead = [] := State.ahead_eq_nil ((s.mem.read_eq_none_iff _).mpr hend.ge)
  have htick : exec .nop s = .next (s.withRegs s.regs.endOfStream) :=
    congrArg _ (State.runTick_of_ahead_eq_nil (Regs.examining_of_decode status free) hnil)
  rw [htick, Regs.endOfStream_decode status]
  exact ⟨fun hpre => by rw [if_pos hpre]; rfl, fun hpre => by rw [if_neg hpre]; rfl⟩

/-! ## Terminal statuses (R147) -/

theorem Status.ne_of_terminal {st st' : Status} (h : st.terminal = true) (h' : st'.terminal = false) :
    st ≠ st' := by
  rintro rfl
  cases h.symm.trans h'

theorem Regs.examining_of_terminal {r : Regs} (h : r.status.terminal = true) : r.examining = false :=
  Regs.examining_eq_false (Status.ne_of_terminal h rfl) fun decode =>
    Status.ne_of_terminal h rfl decode.1

/-- R202: in a terminal status every command but NOP is refused. -/
theorem exec_of_terminal {i : Instr} {s : State} (terminal : s.regs.status.terminal = true)
    (hi : Claims.isCommand i) (hnop : i ≠ .nop) : exec i s = .next s.refuseCommand := by
  have hidle : s.regs.status ≠ .idle := Status.ne_of_terminal terminal rfl
  have hdecode : s.regs.status ≠ .decode := Status.ne_of_terminal terminal rfl
  cases i with
  | frameOp0 | frameOp1 | frameOp2 | frameOp3 => exact hi.elim
  | nop => exact absurd rfl hnop
  | setph p => exact if_neg hidle
  | rdbits | rdbits16 => exact congrArg _ (if_neg fun h => hidle h.1)
  | start b r => exact if_neg fun h => hidle h.1
  | pop => exact if_neg fun h => hdecode h.1

/-- R202: where no sample is examined, `cmd_err` is a refused command's whole effect. -/
theorem State.refuseCommand_of_not_examining {s : State} (h : s.regs.examining = false) :
    s.refuseCommand = s.withRegs s.regs.markCmdErr :=
  State.runTick_of_not_examining (s := { s with regs := s.regs.markCmdErr }) h

/-- R89: NOP has one word. -/
theorem eq_zero_of_decode_nop {w : CommandWord} (h : decode (.command w) = .ok .nop) : w = 0x00 := by
  obtain ⟨henc, -⟩ := encode_of_decodeCommand h
  cases henc
  rfl

/-- A command word other than NOP's, in a terminal status. -/
theorem runFetched_fetchCommand_of_terminal {s : State} {w : CommandWord}
    (terminal : s.regs.status.terminal = true) (hw : w ≠ 0x00) :
    s.runFetched (fetchCommand w) = .next s.refuseCommand := by
  simp only [fetchCommand]
  split
  next i hi =>
    have hnop : i ≠ .nop := fun h => hw (eq_zero_of_decode_nop (h ▸ hi))
    exact exec_of_terminal terminal (isCommand_of_decodeCommand hi) hnop
  next => rfl

/-- The input `body` runs a frame row or NOP (log 5). -/
theorem State.fetchBody_eq_frameOf_or_nop (s : State) :
    s.fetchBody = .run .nop ∨
      ∃ op phy reg ta data, s.fetchBody = .run (frameOf op phy reg ta data) := by
  unfold State.fetchBody
  split
  · exact .inl rfl
  next w _ =>
    split
    next i hi =>
      simp only [decode, decodeBody] at hi
      split at hi
      · cases hi
        exact .inr ⟨_, _, _, _, _, rfl⟩
      · split at hi <;> cases hi
    next => exact .inl rfl

/-- Where no sample is examined, the input `body` changes nothing (R111, log 5). -/
theorem runFetched_fetchBody_of_not_examining {s : State} (h : s.regs.examining = false) :
    s.takeInput.runFetched s.fetchBody = .next s.takeInput.quiet := by
  obtain hnop | ⟨op, phy, reg, ta, data, hframe⟩ := s.fetchBody_eq_frameOf_or_nop
  · rw [hnop]
    exact congrArg _ (State.runTick_of_not_examining (s := s.takeInput) h)
  · rw [hframe, State.runFetched, exec_frameOf,
      State.deliverAll_of_not_examining (s := s.takeInput) h (bodyBits_ne_nil op phy reg ta data)]

/-- Settles O32, by the kinds of input: none, a reset, a command word and a frame body. -/
theorem terminalStatusAbsorbs : Obligations.TerminalStatusAbsorbs := by
  intro s t terminal hstep
  have still : s.regs.examining = false := Regs.examining_of_terminal terminal
  have hquiet : s.takeInput.runTick = s.takeInput.quiet := State.runTick_of_not_examining still
  simp only [step, State.fetch] at hstep
  split at hstep
  next input =>
    cases (congrArg Host.Outcome.next hquiet).symm.trans hstep
    exact .inr (.inr ⟨fun w rest h => (nomatch input.symm.trans h), rfl⟩)
  next w c rest input => exact .inl ⟨w, c, rest, input⟩
  next w rest input =>
    right
    by_cases hw : w = 0x00
    · subst hw
      cases (congrArg Host.Outcome.next hquiet).symm.trans hstep
      refine .inr ⟨fun w rest' h => ?_, rfl⟩
      cases input.symm.trans h
      rfl
    · rw [runFetched_fetchCommand_of_terminal (s := s.takeInput) terminal hw,
        State.refuseCommand_of_not_examining (s := s.takeInput) still] at hstep
      cases hstep
      refine .inl ⟨w, rest, input, hw, ?_⟩
      rw [State.takeInput, input]
      rfl
  next rest input =>
    cases (runFetched_fetchBody_of_not_examining still).symm.trans hstep
    exact .inr (.inr ⟨fun w rest' h => (nomatch input.symm.trans h), rfl⟩)

/-! ## Every activity ends (R152) -/

/-- R120, R146: the end of the capture ends the activity. -/
theorem Regs.examining_endOfStream {r : Regs} (h : r.examining = true) :
    r.endOfStream.examining = false := by
  obtain raw | ⟨status, -⟩ := r.examining_iff.mp h
  · rw [Regs.endOfStream_raw raw]
    rfl
  · exact Regs.examining_of_terminal (Regs.endOfStream_terminal status)

/-- R152: a tick that examines moves the cursor by one sample or ends the activity. -/
theorem State.runTick_progress {s : State} (hpos : s.regs.pos ≤ s.mem.size)
    (examining : s.regs.examining = true) :
    (s.regs.pos < s.mem.size ∧ s.runTick.regs.pos = s.regs.pos + 1) ∨
      (s.regs.pos = s.mem.size ∧ s.runTick.regs.pos = s.regs.pos ∧
        s.runTick.regs.examining = false) := by
  rw [State.runTick_of_examining examining, State.advance]
  cases hread : s.mem.read s.regs.pos with
  | none =>
    have hend := hpos.antisymm ((s.mem.read_eq_none_iff _).mp hread)
    exact .inr ⟨hend, s.advanceOn_pos none, Regs.examining_endOfStream examining⟩
  | some x => exact .inl ⟨Memory.lt_size_of_read hread, s.advanceOn_pos (some x)⟩

/-- R202: while samples are examined, every command but NOP is refused. -/
theorem CommandTick.of_examining {s t : State} (h : CommandTick s t)
    (examining : s.regs.examining = true) : t = s.runTick ∨ t = s.refuseCommand := by
  cases h with
  | nop => exact .inl rfl
  | refused => exact .inr rfl
  | setph _ idle | rdbits _ idle | start _ _ idle => simp [Regs.examining, idle] at examining
  | pop decode frame => simp [Regs.examining, decode, frame] at examining

/-- A bit of a raw read leaves it running or ends it, whatever `need` holds (R117). -/
theorem Regs.acceptBit_status_of_raw {r : Regs} (raw : r.status = .raw) (b : Bool) (t : Ts) :
    (r.acceptBit b t).status = .raw ∨ (r.acceptBit b t).status = .idle := by
  simp only [Regs.acceptBit, raw, Regs.acceptRaw, Regs.latchFirstTs_eq]
  split
  · exact .inr rfl
  · exact .inl rfl

/-- A record of a raw read leaves it running or ends it (R117). -/
theorem State.advanceOn_some_status_of_raw {s : State} (raw : s.regs.status = .raw) (x : Sample) :
    (s.advanceOn (some x)).regs.status = .raw ∨ (s.advanceOn (some x)).regs.status = .idle := by
  cases hy : s.regs.yields x with
  | true =>
    rw [State.advanceOn_yield hy]
    exact Regs.acceptBit_status_of_raw (r := s.regs.examine x) raw x.dat x.ts
  | false => rw [State.advanceOn_skip hy]; exact .inl raw

/-- R152: a raw read under NOPs ends with the records ahead, if not before. -/
theorem nops_status_of_raw {s : State} {xs : List Sample} (hxs : s.ahead = xs)
    (raw : s.regs.status = .raw) : (nops (xs.length + 1) s).regs.status = .idle := by
  induction xs generalizing s with
  | nil =>
    rw [List.length_nil, nops_succ,
      State.runTick_of_ahead_eq_nil (s.regs.examining_iff.mpr (.inl raw)) hxs,
      Regs.endOfStream_raw raw]
    rfl
  | cons x xs ih =>
    rw [List.length_cons, nops_succ,
      State.runTick_of_ahead_eq_cons (s.regs.examining_iff.mpr (.inl raw)) hxs]
    obtain raw' | idle := State.advanceOn_some_status_of_raw raw x
    · exact ih (State.ahead_advanceOn hxs) raw'
    · rw [nops_of_not_examining (by simp [Regs.examining, idle])]
      exact idle

/-- R152: PULL ends a decode within a tick for each record ahead, one for each frame handed over and
one for the end of the capture. -/
theorem pullAll_terminates {s : State} {xs : List Sample} (hxs : s.ahead = xs) (input : s.inbox = [])
    (status : s.regs.status = .decode) (free : s.regs.frValid = false) :
    ∃ n k, (pullAll (n + 1) s).regs.status.terminal = true ∧
      (pullAll (n + 1) s).popLog.length = s.popLog.length + k ∧ n ≤ xs.length + k := by
  have examining := Regs.examining_of_decode status free
  induction xs generalizing s with
  | nil =>
    refine ⟨0, 0, ?_⟩
    rw [pullAll_succ_of_free input status free, State.runTick_of_ahead_eq_nil examining hxs]
    exact ⟨Regs.endOfStream_terminal status, rfl, le_rfl⟩
  | cons x xs ih =>
    have htick := State.runTick_of_ahead_eq_cons examining hxs
    have hahead := State.ahead_advanceOn hxs
    have input' := (s.advanceOn_inbox (some x)).trans input
    have hlog := s.advanceOn_popLog (some x)
    obtain status' | ⟨terminal, -⟩ := State.advanceOn_some_status status x
    · cases frame : (s.advanceOn (some x)).regs.frValid with
      | false =>
        obtain ⟨n, k, hend, hframes, hn⟩ :=
          ih hahead input' status' frame (Regs.examining_of_decode status' frame)
        refine ⟨n + 1, k, ?_⟩
        rw [pullAll_succ_of_free input status free, htick, List.length_cons, ← hlog]
        exact ⟨hend, hframes, by omega⟩
      | true =>
        obtain ⟨n, k, hend, hframes, hn⟩ := ih (s := (s.advanceOn (some x)).popFrame) hahead input'
          status' rfl (Regs.examining_of_decode status' rfl)
        refine ⟨n + 2, k + 1, ?_⟩
        rw [pullAll_succ_of_free input status free, htick,
          pullAll_succ_of_waiting input' status' frame, List.length_cons]
        refine ⟨hend, ?_, by omega⟩
        rw [hframes, State.popFrame_popLog, hlog, List.length_append, List.length_singleton]
        omega
    · refine ⟨0, 0, ?_⟩
      rw [pullAll_succ_of_free input status free, htick, pullAll, hlog]
      exact ⟨terminal, rfl, Nat.zero_le _⟩

/-- PULL drives its own command words: inputs left over do not matter (R94, log 4). -/
theorem pullAll_succ_clearInbox {s : State} (status : s.regs.status = .decode)
    (free : s.regs.frValid = false) (n : Nat) :
    pullAll (n + 1) s = pullAll (n + 1) { s with inbox := [] } := by
  have running : ¬ s.regs.status.terminal = true := by simp [status, Status.terminal]
  have waits : ¬ s.regs.frValid = true := Bool.eq_false_iff.mp free
  have htick : hostTick 0x00#8 s = hostTick 0x00#8 { s with inbox := [] } := rfl
  rw [pullAll, if_neg running, if_neg waits, htick, pullAll, if_neg running, if_neg waits]

theorem State.length_ahead (s : State) : s.ahead.length = s.mem.size - s.regs.pos := List.length_drop

/-- Settles O46: the tick by what the cursor meets, the raw read and the decode by induction on the records
ahead. -/
theorem activitiesEnd : Obligations.ActivitiesEnd := by
  refine ⟨fun s t w rest input hpos examining hstep => ?_, fun s raw => ?_, fun s status free => ?_⟩
  · cases step_cases hstep with
    | reset w' c rest' input' => cases input.symm.trans input'
    | body rest' input' => cases input.symm.trans input'
    | command tick =>
      obtain rfl | rfl := tick.of_examining examining
      · exact State.runTick_progress (s := s.takeInput) hpos examining
      · exact State.runTick_progress (s := { s.takeInput with regs := s.regs.markCmdErr }) hpos
          examining
  · rw [← s.length_ahead]
    exact nops_status_of_raw rfl raw
  · obtain ⟨n, k, hend, hframes, hn⟩ :=
      pullAll_terminates (s := { s with inbox := [] }) rfl rfl status free
    rw [← pullAll_succ_clearInbox status free] at hend hframes
    have hlen := s.length_ahead
    refine ⟨n + 1, hend, ?_⟩
    rw [hframes, ← hlen, Nat.add_sub_cancel_left]
    exact Nat.succ_le_succ hn

/-! ## PULL against the big-step decoder (R149) -/

/-! ### Reading integers (R82, R149) -/

/-- The bits a value was packed from. -/
theorem bitsMsbFirst_packMsbFirst {n : Nat} {bs : List LogicalBit} (hlen : bs.length = n) :
    bitsMsbFirst (packMsbFirst n (bs.map (·.value))) = bs.map (·.value) := by
  subst hlen
  have hpack : packMsbFirst bs.length (bs.map (·.value)) = BitVec.ofNat _ (Claims.value bs) := by
    rw [packMsbFirst_eq_ofNat, List.foldl_map]
    rfl
  rw [hpack, ← map_testBit_value]
  refine List.map_congr_left fun k hk => ?_
  have hlt : k < bs.length := List.mem_range.mp hk
  have hidx : bs.length - 1 - k < bs.length := by omega
  simp only [BitVec.getMsbD, BitVec.getLsbD_ofNat, hlt, hidx, decide_true, Bool.true_and]

/-- R149: `ReadInt(n)` reads the next `n` bits. -/
theorem bitsMsbFirst_readInt {n : Nat} {xs : List LogicalBit} (hn : n ≤ xs.length) :
    bitsMsbFirst (readInt n xs) = (xs.take n).map (·.value) :=
  bitsMsbFirst_packMsbFirst (List.length_take_of_le hn)

/-- The 30 bits after a start code, as the fields R149 reads. -/
theorem map_value_take_thirty {xs : List LogicalBit} (h : 30 ≤ xs.length) :
    false :: true :: (xs.take 30).map (·.value) =
      bodyBits (readInt 2 xs) (readInt 5 (xs.drop 2)) (readInt 5 (xs.drop 7))
        (readInt 2 (xs.drop 12)) (readInt 16 (xs.drop 14)) := by
  have hstart : bitsMsbFirst 0b01#2 = [false, true] := by decide
  have hsplit : xs.take 30 = xs.take 2 ++ (xs.drop 2).take 5 ++ (xs.drop 7).take 5 ++
      (xs.drop 12).take 2 ++ (xs.drop 14).take 16 := by
    simp only [← List.take_add]
  have later {k n : Nat} (hk : k + n ≤ 30) :
      bitsMsbFirst (readInt n (xs.drop k)) = ((xs.drop k).take n).map (·.value) :=
    bitsMsbFirst_readInt (by rw [List.length_drop]; omega)
  rw [bodyBits, hstart, bitsMsbFirst_readInt (by omega), later (by decide), later (by decide),
    later (by decide), later (by decide), hsplit]
  simp

/-! ### The search for a frame (R170 to R173, R183) -/

/-- The search for a start 0-bit, with `n` ones counted. -/
structure Regs.Search (n : Nat) (r : Regs) : Prop where
  status : r.status = .decode
  free : r.frValid = false
  field : r.field = .pre
  ones : r.ones.toNat = n

theorem Regs.Accepts.resync {r r' : Regs} {bs : List LogicalBit} (h : Accepts r bs r') :
    r'.resync = r.resync := by
  induction h with
  | nil => rfl
  | cons _ _ _ ih => exact ih.trans (Regs.acceptBit_same ..).resync

/-- Bits that leave no frame waiting hand none over. -/
theorem Regs.Accepts.foldl_pullBit_of_free {r r' : Regs} {bs : List LogicalBit} (h : Accepts r bs r')
    (free : r'.frValid = false) (fs : List Frame) : bs.foldl pullBit (fs, r) = (fs, r') := by
  cases h with
  | nil => rfl
  | cons status free' rest =>
    rw [(Accepts.cons status free' rest).foldl_pullBit (List.cons_ne_nil _ _),
      Regs.handOver_of_free free]

/-- R183, abort mode. -/
theorem Regs.violation_abort {r : Regs} (abort : r.resync = false) (k : ViolKind) :
    (r.violation k).status = (if k = .preambleShort then .errPreamble else .errStart) ∧
      (r.violation k).frValid = r.frValid := by
  cases k <;> simp [Regs.violation, abort]

/-- R183, resynchronise mode. -/
theorem Regs.violation_resync {r : Regs} (resync : r.resync = true) (k : ViolKind) :
    r.violation k = { r.markViolation k with field := .pre, ones := 0 } := by
  simp [Regs.violation, resync]

theorem Regs.Search.violation {r : Regs} (status : r.status = .decode) (free : r.frValid = false)
    (resync : r.resync = true) (k : ViolKind) : (r.violation k).Search 0 := by
  rw [Regs.violation_resync resync]
  exact ⟨status, free, rfl, rfl⟩

namespace Regs.Search

variable {n : Nat} {r : Regs}

/-- R171, R149: a 1-bit counts, up to 16. -/
theorem acceptBit_one (h : r.Search n) (t : Ts) : (r.acceptBit true t).Search (min (n + 1) 16) := by
  rw [Regs.acceptBit_preamble h.status h.field, h.ones]
  exact ⟨h.status, h.free, h.field, Nat.mod_eq_of_lt (by omega)⟩

/-- R173: a 0-bit too early. -/
theorem acceptBit_short (h : r.Search n) (hn : ¬ 16 ≤ n) (t : Ts) :
    r.acceptBit false t = r.violation .preambleShort := by
  have hones : ¬ Config.preambleMin ≤ r.ones.toNat := h.ones ▸ hn
  simp [Regs.acceptBit, h.status, Regs.acceptDecode, h.field, Regs.acceptPre, hones, Regs.raise]

end Regs.Search

/-- What the bits `bs` make of a search that began in `r`, by how R149's search ends on them. -/
inductive Regs.SearchEnds (r : Regs) : List LogicalBit → StartSearch → Prop
  | clean {bs : List LogicalBit} {r' : Regs} {n : Nat} (bits : Accepts r bs r') (search : r'.Search n) :
      SearchEnds r bs .clean
  | short {bs : List LogicalBit} {r' : Regs} (bits : Accepts r bs r') (status : r'.status = .errPreamble)
      (free : r'.frValid = false) (rest : List LogicalBit) : SearchEnds r (bs ++ rest) .short
  | found {bs : List LogicalBit} {r' : Regs} {n : Nat} (bits : Accepts r bs r') (search : r'.Search n)
      (enough : 16 ≤ n) (ts : Ts) (rest : List LogicalBit) :
      SearchEnds r (bs ++ ⟨false, ts⟩ :: rest) (.found ts rest)

theorem Regs.SearchEnds.cons {r : Regs} {b : LogicalBit} {bs : List LogicalBit} {e : StartSearch}
    (status : r.status = .decode) (free : r.frValid = false)
    (h : (r.acceptBit b.value b.ts).SearchEnds bs e) : r.SearchEnds (b :: bs) e := by
  cases h with
  | clean bits search => exact .clean (.cons status free bits) search
  | short bits ended free' rest => exact .short (.cons status free bits) ended free' rest
  | found bits search enough ts rest => exact .found (.cons status free bits) search enough ts rest

/-- R149, step 1: the machine's search ends as `searchStart` says. -/
theorem Regs.Search.ends {r : Regs} {n : Nat} (h : r.Search n) (bs : List LogicalBit) :
    r.SearchEnds bs (searchStart r.resync n bs) := by
  induction bs generalizing r n with
  | nil => exact .clean (.nil r) h
  | cons b bs ih =>
    have hresync := (Regs.acceptBit_same b.value b.ts r).resync
    obtain ⟨value, ts⟩ := b
    cases value with
    | true =>
      refine .cons h.status h.free ?_
      rw [searchStart, if_pos rfl, ← hresync]
      exact ih (h.acceptBit_one ts)
    | false =>
      rw [searchStart, if_neg Bool.false_ne_true]
      by_cases enough : Config.preambleMin ≤ n
      · rw [if_pos enough]
        exact .found (.nil r) h enough ts bs
      · have hshort := h.acceptBit_short enough ts
        rw [if_neg enough]
        cases resync : r.resync with
        | true =>
          refine .cons h.status h.free ?_
          have anew := Search.violation h.status h.free resync .preambleShort
          rw [← hshort] at anew
          rw [if_pos rfl, ← resync, ← hresync]
          exact ih anew
        | false =>
          rw [if_neg Bool.false_ne_true]
          obtain ⟨ended, kept⟩ := Regs.violation_abort resync .preambleShort
          rw [← hshort] at ended kept
          exact .short (.cons h.status h.free (.nil _)) ended (kept.trans h.free) bs

/-! ### The bits of a body that the capture cuts off (R143, R146) -/

/-- How many bits of a body follow a counted field (R80). -/
def FrameField.bitsAfter : FrameField → Nat
  | .pre => 0
  | .st1 => 0
  | .op => 28
  | .phy => 23
  | .reg => 18
  | .ta => 16
  | .data => 0

/-- A counted field of a body that lacks `n` more bits. -/
structure Regs.Counting (n : Nat) (r : Regs) : Prop where
  status : r.status = .decode
  free : r.frValid = false
  notPre : r.field ≠ .pre
  notSt1 : r.field ≠ .st1
  need : 1 ≤ r.need.toNat
  left : r.need.toNat + r.field.bitsAfter = n

namespace Regs.Counting

variable {n : Nat} {r : Regs}

theorem enterField (status : r.status = .decode) (free : r.frValid = false) {f : FrameField}
    (hpre : f ≠ .pre) (hst1 : f ≠ .st1) : (r.enterField f).Counting (f.width.toNat + f.bitsAfter) :=
  ⟨status, free, hpre, hst1, FrameField.one_le_width hpre hst1, rfl⟩

/-- R144: a field completed before the body's end is followed by the next one. -/
theorem completeField (status : r.status = .decode) (free : r.frValid = false) (hpre : r.field ≠ .pre)
    (hst1 : r.field ≠ .st1) (hn : 1 ≤ r.field.bitsAfter) (v : BitVec 16) :
    (r.completeField v).Counting r.field.bitsAfter := by
  unfold Regs.completeField
  cases hf : r.field with
  | pre => exact absurd hf hpre
  | st1 => exact absurd hf hst1
  | data => rw [hf] at hn; cases hn
  | op =>
    exact enterField (r := { r with frOp := v.setWidth 2 }) status free (f := .phy) nofun nofun
  | phy =>
    exact enterField (r := { r with frPhy := v.setWidth 5 }) status free (f := .reg) nofun nofun
  | reg =>
    exact enterField (r := { r with frReg := v.setWidth 5 }) status free (f := .ta) nofun nofun
  | ta => exact enterField status free (f := .data) nofun nofun

/-- R143: a bit that is not the body's last. -/
theorem acceptBit (h : r.Counting (n + 1)) (hn : 1 ≤ n) (b : Bool) (t : Ts) :
    (r.acceptBit b t).Counting n := by
  have hneed := h.need
  have hleft := h.left
  rw [Regs.acceptBit_counted h.status h.notPre h.notSt1, Regs.acceptCounted]
  by_cases hlast : r.need - 1 = 0
  · obtain rfl : r.field.bitsAfter = n := by bv_omega
    rw [if_pos hlast]
    exact completeField h.status h.free h.notPre h.notSt1 hn _
  · have hpred : (r.need - 1).toNat = r.need.toNat - 1 := by bv_omega
    rw [if_neg hlast]
    refine ⟨h.status, h.free, h.notPre, h.notSt1, (toNat_pred_of_ne_zero hneed hlast).1, ?_⟩
    show (r.need - 1).toNat + r.field.bitsAfter = n
    omega

/-- Fewer bits than the body lacks leave it unfinished. -/
theorem accepts {bs : List LogicalBit} (h : r.Counting n) (hlt : bs.length < n) :
    ∃ r' : Regs, Accepts r bs r' ∧ r'.Counting (n - bs.length) := by
  induction bs generalizing r n with
  | nil => exact ⟨r, .nil r, h⟩
  | cons b bs ih =>
    rw [List.length_cons] at hlt
    obtain ⟨n, rfl⟩ := Nat.exists_eq_add_of_le' (show 1 ≤ n by omega)
    obtain ⟨r', bits, left⟩ := ih (h.acceptBit (by omega) b.value b.ts) (by omega)
    refine ⟨r', .cons h.status h.free bits, ?_⟩
    rwa [List.length_cons, Nat.add_sub_add_right]

end Regs.Counting

/-! ### What PULL makes of a decode's bits (R149) -/

/-- From the registers `r`, PULL makes of the bits `bs` and the end of the capture the frames and the
status `result`. -/
def Regs.Decodes (r : Regs) (bs : List LogicalBit) (result : List Frame × Status) : Prop :=
  ∀ fs, (bs.foldl pullBit (fs, r)).map id (fun r' => r'.endOfStream.status) =
    (fs ++ result.1, result.2)

namespace Regs.Decodes

variable {r r' : Regs} {bs cs : List LogicalBit} {result : List Frame × Status}

theorem of_terminal {st : Status} (ended : r.status = st) (terminal : st.terminal = true)
    (free : r.frValid = false) : r.Decodes bs ([], st) := by
  subst ended
  intro fs
  rw [foldl_pullBit_of_terminal terminal free, Prod.map_apply, Regs.endOfStream_of_terminal terminal]
  simp

/-- Bits that deliver no frame. -/
theorem append (bits : Accepts r bs r') (free : r'.frValid = false) (rest : r'.Decodes cs result) :
    r.Decodes (bs ++ cs) result := by
  intro fs
  rw [List.foldl_append, bits.foldl_pullBit_of_free free]
  exact rest fs

/-- Bits that deliver a frame at their end. -/
theorem frame (bits : Accepts r bs r') (hbs : bs ≠ []) (frame : r'.frValid = true)
    (rest : r'.clearFrValid.Decodes cs result) :
    r.Decodes (bs ++ cs) (r'.frame :: result.1, result.2) := by
  intro fs
  rw [List.foldl_append, bits.foldl_pullBit hbs, Regs.handOver_of_waiting frame, rest,
    List.append_assoc]
  rfl

/-- R146: the end of the capture after the last of the bits. -/
theorem ended (bits : Accepts r bs r') (status : r'.status = .decode) (free : r'.frValid = false) :
    r.Decodes bs ([], if r'.field = .pre then .doneClean else .doneTrunc) := by
  intro fs
  rw [bits.foldl_pullBit_of_free free, Prod.map_apply, Regs.endOfStream_decode status]
  simp

end Regs.Decodes

/-- R172: the registers behind the start 0-bit. -/
def Regs.startAt (ts : Ts) (r : Regs) : Regs := { r with frTs := some ts, field := .st1 }

/-- R175, R183: a 0-bit in F_ST1. -/
theorem Regs.acceptBit_mismatch {r : Regs} (status : r.status = .decode) (hf : r.field = .st1)
    (t : Ts) : r.acceptBit false t = r.violation .startMismatch := by
  simp [Regs.acceptBit, status, Regs.acceptDecode, hf, Regs.acceptSt1, Regs.raise]

namespace Regs.Search

variable {n : Nat} {r : Regs}

/-- R172: the start 0-bit. -/
theorem accepts_start (h : r.Search n) (enough : 16 ≤ n) (ts : Ts) :
    Accepts r [⟨false, ts⟩] (r.startAt ts) := by
  refine .cons h.status h.free ?_
  rw [Regs.acceptBit_start h.status h.field (h.ones.symm ▸ enough)]
  exact .nil _

/-- R146: the capture ends behind the start 0-bit. -/
theorem decodes_start (h : r.Search n) (enough : 16 ≤ n) (ts : Ts) :
    r.Decodes [⟨false, ts⟩] ([], .doneTrunc) :=
  .ended (h.accepts_start enough ts) h.status h.free

/-- R149, step 1: a start code that fails, and what the bits after it make. -/
theorem decodes_mismatch (h : r.Search n) (enough : 16 ≤ n) (ts ts' : Ts) {bs : List LogicalBit}
    {result : List Frame × Status}
    (rest : ∀ r' : Regs, r'.Search 0 → r'.resync = r.resync → r'.Decodes bs result) :
    r.Decodes (⟨false, ts⟩ :: ⟨false, ts'⟩ :: bs)
      (if r.resync then result else ([], .errStart)) := by
  have bits : Accepts r [⟨false, ts⟩, ⟨false, ts'⟩] ((r.startAt ts).violation .startMismatch) := by
    refine (h.accepts_start enough ts).append (.cons h.status h.free ?_)
    rw [Regs.acceptBit_mismatch (r := r.startAt ts) h.status rfl]
    exact .nil _
  have kept := ((r.startAt ts).violation_same .startMismatch).resync
  cases resync : r.resync with
  | true =>
    have anew := Search.violation (r := r.startAt ts) h.status h.free resync .startMismatch
    exact (rest _ anew kept).append bits anew.free
  | false =>
    obtain ⟨ended, kept'⟩ := Regs.violation_abort (r := r.startAt ts) resync .startMismatch
    have free := kept'.trans h.free
    exact (Regs.Decodes.of_terminal ended rfl free).append bits free

/-- R146: the capture ends in the body. -/
theorem decodes_truncated (h : r.Search n) (enough : 16 ≤ n) (ts ts' : Ts) {bs : List LogicalBit}
    (hlt : bs.length < 30) : r.Decodes (⟨false, ts⟩ :: ⟨true, ts'⟩ :: bs) ([], .doneTrunc) := by
  have hcode : Accepts r [⟨false, ts⟩, ⟨true, ts'⟩] ({ r with frTs := some ts }.enterField .op) :=
    .startCode rfl h.status h.free h.field (h.ones.symm ▸ enough)
  have counting : ({ r with frTs := some ts }.enterField .op).Counting 30 :=
    .enterField (r := { r with frTs := some ts }) h.status h.free (f := .op) nofun nofun
  obtain ⟨r', bits, left⟩ := counting.accepts hlt
  have hend := Regs.Decodes.ended (hcode.append bits) left.status left.free
  rwa [if_neg left.notPre] at hend

/-- R149, steps 2 to 7: a whole frame, and what the bits after it make. -/
theorem decodes_frame (h : r.Search n) (enough : 16 ≤ n) (ts ts' : Ts) {bs : List LogicalBit}
    (hle : 30 ≤ bs.length) {result : List Frame × Status}
    (rest : ∀ r' : Regs, r'.Search 0 → r'.resync = r.resync → r'.Decodes (bs.drop 30) result) :
    r.Decodes (⟨false, ts⟩ :: ⟨true, ts'⟩ :: bs)
      (⟨some ts, readInt 2 bs, readInt 5 (bs.drop 2), readInt 5 (bs.drop 7), readInt 16 (bs.drop 14)⟩
        :: result.1, result.2) := by
  have hbody := Accepts.body (bs := ⟨false, ts⟩ :: ⟨true, ts'⟩ :: bs.take 30)
    (map_value_take_thirty hle) h.status h.free h.field (h.ones.symm ▸ enough)
  have hframe := Regs.Decodes.frame hbody (List.cons_ne_nil _ _) rfl
    (rest _ ⟨h.status, rfl, rfl, rfl⟩ rfl)
  rwa [List.cons_append, List.cons_append, List.take_append_drop] at hframe

/-- R149: PULL makes of the bits what `decodeAll` does, from any state that begins the search. -/
theorem decodes_decodeAll (h : r.Search 0) {fuel : Nat} {bs : List LogicalBit}
    (hfuel : bs.length < fuel) : r.Decodes bs (decodeAll r.resync fuel bs) := by
  induction fuel generalizing r bs with
  | zero => exact absurd hfuel (Nat.not_lt_zero _)
  | succ fuel ih =>
    have hends := h.ends bs
    rw [decodeAll]
    generalize searchStart r.resync 0 bs = e at hends
    cases hends with
    | clean bits search =>
      have hend := Regs.Decodes.ended bits search.status search.free
      rwa [if_pos search.field] at hend
    | short bits status free rest =>
      exact (Regs.Decodes.of_terminal status rfl free).append bits free
    | found bits search enough ts rest =>
      refine .append bits search.free ?_
      rw [← bits.resync]
      rw [List.length_append, List.length_cons] at hfuel
      cases rest with
      | nil => exact search.decodes_start enough ts
      | cons x rest =>
        rw [List.length_cons] at hfuel
        obtain ⟨value, ts'⟩ := x
        cases value with
        | false =>
          refine search.decodes_mismatch enough ts ts' fun r'' anew same => ?_
          rw [← same]
          exact ih anew (by omega)
        | true =>
          simp only [Bool.not_true, Bool.false_eq_true, if_false]
          by_cases hlt : rest.length < 30
          · rw [if_pos hlt]
            exact search.decodes_truncated enough ts ts' hlt
          · rw [if_neg hlt]
            refine search.decodes_frame enough ts ts' (Nat.le_of_not_lt hlt) fun r'' anew same => ?_
            rw [← same]
            exact ih anew (by rw [List.length_drop]; omega)

end Regs.Search

/-- Settles O47: PULL gives the block all the bits the records ahead yield, and then the end of the
capture. -/
theorem pulledDecodeIsDecodeAll : Obligations.PulledDecodeIsDecodeAll := by
  intro s n status free hf hones hn bits r
  have search : (s.regs.moveTo 0 false).Search 0 := ⟨status, free, hf, congrArg BitVec.toNat hones⟩
  obtain ⟨n, rfl⟩ := Nat.exists_eq_add_of_le' (show 1 ≤ n by omega)
  rw [← s.length_ahead] at hn
  have hsession := session_pullAll (s := { s with inbox := [] }) rfl status free hn
  rw [← pullAll_succ_clearInbox status free] at hsession
  have hdecodes := search.decodes_decodeAll (Nat.lt_succ_self bits.length) s.popLog
  have hresult : ((pullAll (n + 1) s).popLog, (pullAll (n + 1) s).regs.status) =
      (s.popLog ++ r.1, r.2) :=
    (congrArg (Prod.map id Regs.status) hsession).trans hdecodes
  exact Prod.mk.inj hresult

end Sys2Proof.Machine

/-! # The field decoder (42_field_decoder.md): the preamble, its end, the protocol violations and the write
flag -/

namespace Sys2Proof.Machine

/-- A tick that recovers the bit `b` in the field `f` leaves the registers that accepting `b` there does
(R111, R142). -/
theorem exec_nop_of_acceptBit {s : State} {f : FrameField} {x : Sample} {b : Bool} {r : Regs}
    (bit : Claims.BitIn f s x) (dat : x.dat = b)
    (accept : s.regs.status = .decode → s.regs.field = f → s.regs.acceptBit b x.ts = r) :
    exec .nop s = .next (Claims.afterBit s x r) := by
  have hbit := exec_nop_of_bitIn bit
  obtain ⟨status, -, hf, -, -⟩ := bit
  rw [hbit, dat, accept status hf]

/-! ## The preamble (R171, R172) -/

/-- Settles O33, by R171's count on the registers. -/
theorem preambleOneBitCounts : Obligations.PreambleOneBitCounts := fun _ x bit one =>
  exec_nop_of_acceptBit bit one fun status hf => Regs.acceptBit_preamble status hf x.ts

/-- Settles O34, by R172's start 0-bit on the registers. -/
theorem startBitLatchesTimestamp : Obligations.StartBitLatchesTimestamp := fun _ x bit zero enough =>
  exec_nop_of_acceptBit bit zero fun status hf => Regs.acceptBit_start status hf enough x.ts

/-! ## Protocol violations (R173, R175, R183) -/

/-- R183, abort mode: the status alone is written, with the kind's code. -/
theorem Regs.violation_eq_of_abort {r : Regs} (abort : r.resync = false) (k : ViolKind) :
    r.violation k = { r with status := if k = .preambleShort then .errPreamble else .errStart } := by
  cases k <;> simp [Regs.violation, abort]

/-- R173: a 0-bit in F_PRE after fewer than 16 ones is the violation PREAMBLE_SHORT. -/
theorem exec_nop_preambleShort {s : State} {x : Sample} (bit : Claims.BitIn .pre s x)
    (zero : x.dat = false) (short : s.regs.ones.toNat < 16) :
    exec .nop s = .next (Claims.afterBit s x (s.regs.violation .preambleShort)) := by
  have ⟨_, free, _⟩ := bit
  exact exec_nop_of_acceptBit bit zero fun status hf =>
    Regs.Search.acceptBit_short ⟨status, free, hf, rfl⟩ (Nat.not_le_of_lt short) x.ts

/-- R175: a 0-bit in F_ST1 is the violation START_MISMATCH. -/
theorem exec_nop_startMismatch {s : State} {x : Sample} (bit : Claims.BitIn .st1 s x)
    (zero : x.dat = false) :
    exec .nop s = .next (Claims.afterBit s x (s.regs.violation .startMismatch)) :=
  exec_nop_of_acceptBit bit zero fun status hf => Regs.acceptBit_mismatch status hf x.ts

/-- Settles O35: the two kinds by R173 and R175, the two modes by R183. -/
theorem protocolViolations : Obligations.ProtocolViolations := by
  intro s x zero
  refine ⟨fun bit short abort => ?_, fun bit abort => ?_, fun bit short resync => ?_,
    fun bit resync => ?_⟩
  · rw [exec_nop_preambleShort bit zero short, Regs.violation_eq_of_abort abort, if_pos rfl]
  · rw [exec_nop_startMismatch bit zero, Regs.violation_eq_of_abort abort, if_neg nofun]
  · rw [exec_nop_preambleShort bit zero short, Regs.violation_resync resync]
    rfl
  · rw [exec_nop_startMismatch bit zero, Regs.violation_resync resync]
    rfl

/-! ## The write flag (R182) -/

theorem Regs.frWr_iff (r : Regs) : r.frWr = true ↔ r.frOp = 1 := beq_iff_eq

/-- R31: a frame shown on port 16 is the frame registers. -/
theorem State.eq_framePorts_of_ports_frame {s : State} {f : FramePorts} (h : s.ports.frame = some f) :
    f = s.regs.framePorts := by
  obtain ⟨-, hshown⟩ := Option.ite_none_right_eq_some.mp h
  exact (Option.some.inj hshown).symm

/-- Settles O36: the ports show the registers, whose write flag is the comparison with 1. -/
theorem writeClassification : Obligations.WriteClassification := by
  refine fun s => ⟨s.regs.frWr_iff, fun f shown => ?_⟩
  rw [State.eq_framePorts_of_ports_frame shown]
  exact ⟨s.regs.frWr_iff, rfl⟩

end Sys2Proof.Machine

/-! # The host interface (43_host_interface.md): the word a step runs, acceptance and refusal of commands,
and the tick as R200 writes it -/

namespace Sys2Proof.Machine

/-! ## What a step runs (R200, R203) -/

/-- Settles O14: where no sample is examined, the tick only takes the outputs away. -/
theorem nopWithoutSample : Obligations.NopWithoutSample := fun s raw decode =>
  congrArg Host.Outcome.next
    (State.runTick_of_not_examining (Regs.examining_eq_false (r := s.regs) raw decode))

theorem step_of_command {s : State} {w : CommandWord} {rest : List HostInput}
    (input : s.inbox = .command w :: rest) :
    step s = { s with inbox := rest }.runFetched (fetchCommand w) := by
  simp only [step, State.fetch, State.takeInput, input]
  rfl

theorem step_of_body {s : State} {rest : List HostInput} (input : s.inbox = .body :: rest) :
    step s = { s with inbox := rest }.runFetched s.fetchBody := by
  simp only [step, State.fetch, State.takeInput, input]
  rfl

theorem step_of_no_input {s : State} (input : s.inbox = []) : step s = exec .nop s := by
  have hs : s.takeInput = s := by cases s; cases input; rfl
  simp only [step, State.fetch, hs, input]
  rfl

theorem fetchCommand_of_decode {w : CommandWord} {i : Instr} (h : decode (.command w) = .ok i) :
    fetchCommand w = .run i := by
  simp [fetchCommand, h]

theorem fetchCommand_of_error {w : CommandWord} {e : DecodeError}
    (h : decode (.command w) = .error e) : fetchCommand w = .malformed e := by
  simp [fetchCommand, h]

/-- R82: the body word is the value of the 32 bits at the cursor. -/
theorem State.bodyAtCursor_of_readBits {s : State} {bs : List LogicalBit} {k : Nat}
    (h : s.readBits 32 = some (bs, k)) :
    s.bodyAtCursor = some (BitVec.ofNat 32 (Claims.value bs)) := by
  simp [State.bodyAtCursor, h, packMsbFirst_eq_ofNat, List.foldl_map, Claims.value]

theorem State.fetchBody_of_decode {s : State} {w : BodyWord} {i : Instr}
    (hbody : s.bodyAtCursor = some w) (h : decode (.body w) = .ok i) : s.fetchBody = .run i := by
  simp [State.fetchBody, hbody, h]

/-- Settles O8, by the kind of the host's input. -/
theorem stepRunsDecodedInstruction : Obligations.StepRunsDecodedInstruction := by
  refine fun s rest i => ⟨fun w input hw => ?_, fun bs k input hread hw => ?_, step_of_no_input⟩
  · rw [step_of_command input, fetchCommand_of_decode hw]
    rfl
  · rw [step_of_body input, State.fetchBody_of_decode (State.bodyAtCursor_of_readBits hread) hw]
    rfl

/-! ## Acceptance (R202) -/

/-- R202: a refused command is the refusal and the tick of NOP. -/
theorem exec_of_not_accepted {i : Instr} {s : State} (hi : Claims.isCommand i)
    (refused : ¬ Claims.accepted i s.regs) : exec i s = .next s.refuseCommand := by
  cases i with
  | frameOp0 | frameOp1 | frameOp2 | frameOp3 => exact hi.elim
  | nop => exact absurd trivial refused
  | rdbits c => exact congrArg _ (if_neg refused)
  | rdbits16 => exact congrArg _ (if_neg fun h => refused h.1)
  | setph | start | pop => exact if_neg refused

theorem State.advanceOn_cmdErr (o : Option Sample) (s : State) :
    (s.advanceOn o).regs.cmdErr = s.regs.cmdErr := by
  cases o with
  | none => exact s.regs.endOfStream_cmdErr
  | some x =>
    cases hy : s.regs.yields x with
    | true => rw [State.advanceOn_yield hy]; exact Regs.acceptBit_cmdErr ..
    | false => rw [State.advanceOn_skip hy]; rfl

theorem State.runTick_cmdErr (s : State) : s.runTick.regs.cmdErr = s.regs.cmdErr := by
  unfold State.runTick
  split
  · exact s.advanceOn_cmdErr _
  · rfl

theorem Regs.beginRaw_cmdErr (c : BitVec 5) (r : Regs) : (r.beginRaw c).cmdErr = r.cmdErr := by
  unfold Regs.beginRaw
  split <;> rfl

theorem Regs.beginDecode_cmdErr (b k : Bool) (r : Regs) :
    (r.beginDecode b k).cmdErr = r.cmdErr := by
  cases b <;> rfl

/-- R202: an accepted command completes without the refusal mark. -/
theorem exec_of_accepted {i : Instr} {s : State} (hi : Claims.isCommand i)
    (accepted : Claims.accepted i s.regs) :
    ∃ t, exec i s = .next t ∧ t.regs.cmdErr = s.regs.cmdErr := by
  cases i with
  | frameOp0 | frameOp1 | frameOp2 | frameOp3 => exact hi.elim
  | nop => exact ⟨_, rfl, s.runTick_cmdErr⟩
  | setph p => exact ⟨_, if_pos accepted, rfl⟩
  | rdbits c => exact ⟨_, congrArg Host.Outcome.next (if_pos accepted), s.regs.beginRaw_cmdErr c⟩
  | rdbits16 => exact ⟨_, exec_readBits accepted (.inr ⟨rfl, rfl⟩), s.regs.beginRaw_cmdErr 16⟩
  | start b r => exact ⟨_, if_pos accepted, s.regs.beginDecode_cmdErr b r⟩
  | pop => exact ⟨_, if_pos accepted, rfl⟩

/-- Settles O12, by the acceptance of each command. -/
theorem commandAcceptance : Obligations.CommandAcceptance := fun _ _ hi =>
  ⟨exec_of_not_accepted hi, exec_of_accepted hi⟩

/-! ## Totality (R200) -/

/-- Every instruction completes: a command accepted or refused, a frame row by its bits. -/
theorem exec_total (i : Instr) (s : State) : ∃ t, exec i s = .next t := by
  by_cases hi : Claims.isCommand i
  · by_cases accepted : Claims.accepted i s.regs
    · obtain ⟨t, ht, -⟩ := exec_of_accepted hi accepted
      exact ⟨t, ht⟩
    · exact ⟨_, exec_of_not_accepted hi accepted⟩
  · obtain ⟨bits, hbits⟩ := exec_frame_eq_deliverAll hi
    exact ⟨_, hbits s⟩

/-- A command word completes, whether it decodes or not. -/
theorem runFetched_fetchCommand_total (w : CommandWord) (s : State) :
    ∃ t, s.runFetched (fetchCommand w) = .next t := by
  cases h : decode (.command w) with
  | ok i => rw [fetchCommand_of_decode h]; exact exec_total i s
  | error e => rw [fetchCommand_of_error h]; exact ⟨_, rfl⟩

/-- Settles O10, for a step by the kind of the host's input. -/
theorem executionIsTotal : Obligations.ExecutionIsTotal := by
  refine ⟨exec_total, fun s => ?_⟩
  cases input : s.inbox with
  | nil => rw [step_of_no_input input]; exact .inl (exec_total _ _)
  | cons h rest =>
    cases h with
    | command w => rw [step_of_command input]; exact .inl (runFetched_fetchCommand_total _ _)
    | body =>
      obtain ⟨i, hi⟩ := s.fetchBody_cases
      rw [step_of_body input, hi]
      exact .inl (exec_total _ _)
    | reset w c =>
      rw [step_of_reset input]
      cases c with
      | none => exact .inl ⟨_, rfl⟩
      | some m =>
        by_cases hm : m.records.length ≤ 2 ^ 32 - 1
        · exact .inl ⟨_, State.resetTick_load hm _⟩
        · exact .inr ⟨w, m, rest, rfl, not_le.mp hm⟩

/-! ## Reserved and malformed words (R203) -/

/-- R91's list has no word of R89's table. -/
theorem decode_error_of_refusedWord {w : CommandWord} (h : Claims.refusedWord w) :
    ∃ e, decode (.command w) = .error e := by
  cases hw : decode (.command w) with
  | ok i =>
    have hlisted := listed_of_decodeCommand hw
    unfold Claims.refusedWord at h
    bv_omega
  | error e => exact ⟨e, rfl⟩

/-- Settles O11: the decoder refuses each word of the list. -/
theorem malformedWordRefused : Obligations.MalformedWordRefused := by
  intro s w rest input hw
  obtain ⟨e, he⟩ := decode_error_of_refusedWord hw
  rw [step_of_command input, fetchCommand_of_error he]
  rfl

/-! ## The tick of R200 -/

/-- An `Advance` writes both outputs, so it does not see those of the last tick. -/
theorem State.quiet_advance (s : State) : s.quiet.advance = s.advance := by
  show s.quiet.advanceOn (s.mem.read s.regs.pos) = s.advanceOn (s.mem.read s.regs.pos)
  cases s.mem.read s.regs.pos <;> rfl

theorem State.noteCommand_of_ne {cmd : CommandWord} (h : cmd ≠ 0x00) (s : State) :
    s.noteCommand cmd = { s with regs := s.regs.markCmdErr } :=
  if_neg h

theorem State.noteCommand_quiet (cmd : CommandWord) (s : State) :
    s.quiet.noteCommand cmd = (s.noteCommand cmd).quiet := by
  unfold State.noteCommand
  split <;> rfl

theorem State.noteCommand_examining (cmd : CommandWord) (s : State) :
    (s.noteCommand cmd).regs.examining = s.regs.examining := by
  unfold State.noteCommand
  split <;> rfl

/-- A command word of which nothing is accepted sets `cmd_err` unless it is NOP's, and the tick goes on as
for NOP. -/
theorem runFetched_of_not_accepted {s : State} {cmd : CommandWord}
    (refused : ∀ i, decode (.command cmd) = .ok i → i ≠ .nop → ¬ Claims.accepted i s.regs) :
    s.runFetched (fetchCommand cmd) = .next (s.noteCommand cmd).runTick := by
  by_cases hcmd : cmd = 0x00
  · subst hcmd; rfl
  rw [State.noteCommand_of_ne hcmd]
  cases h : decode (.command cmd) with
  | error e => rw [fetchCommand_of_error h]; rfl
  | ok i =>
    have hnop : i ≠ .nop := fun hi => hcmd (eq_zero_of_decode_nop (hi ▸ h))
    rw [fetchCommand_of_decode h]
    exact exec_of_not_accepted (isCommand_of_decodeCommand h) (refused i h hnop)

/-- R200's lines where nothing is accepted: no command in ST_IDLE, and no POP of a waiting frame. -/
theorem tick_eq_runTick {s : State} {cmd : CommandWord} (idle : s.regs.status ≠ .idle)
    (pop : cmd = 0x80 → ¬ (s.regs.status = .decode ∧ s.regs.frValid = true)) :
    tick false cmd s = (s.noteCommand cmd).runTick := by
  cases he : s.regs.examining with
  | true =>
    rw [State.runTick_of_examining ((s.noteCommand_examining cmd).trans he), ← State.quiet_advance,
      ← State.noteCommand_quiet]
    obtain raw | ⟨status, free⟩ := s.regs.examining_iff.mp he
    · simp [tick, raw]
    · simp [tick, status, free]
  | false =>
    rw [State.runTick_of_not_examining ((s.noteCommand_examining cmd).trans he),
      ← State.noteCommand_quiet]
    cases status : s.regs.status with
    | idle => exact absurd status idle
    | raw => simp [Regs.examining, status] at he
    | decode =>
      have frame : s.regs.frValid = true := by simpa [Regs.examining, status] using he
      have hcmd : cmd ≠ 0x80 := fun h => pop h ⟨status, frame⟩
      simp only [tick, State.quiet_regs, status, frame, Bool.false_eq_true, if_false, if_true]
      exact if_neg hcmd
    | doneClean | doneTrunc | errPreamble | errStart | errMode => simp [tick, status]

/-- R202 outside ST_IDLE: of the commands but NOP only POP of a waiting frame is accepted. -/
theorem pop_of_accepted {i : Instr} {s : State} (hi : Claims.isCommand i) (hnop : i ≠ .nop)
    (idle : s.regs.status ≠ .idle) (accepted : Claims.accepted i s.regs) :
    i = .pop ∧ s.regs.status = .decode ∧ s.regs.frValid = true := by
  cases i with
  | frameOp0 | frameOp1 | frameOp2 | frameOp3 => exact hi.elim
  | nop => exact absurd rfl hnop
  | setph | rdbits16 => exact absurd accepted idle
  | rdbits | start => exact absurd accepted.1 idle
  | pop => exact ⟨rfl, accepted⟩

/-- R89: POP has one word. -/
theorem eq_of_decode_pop {w : CommandWord} (h : decode (.command w) = .ok .pop) : w = 0x80 := by
  obtain ⟨henc, -⟩ := encode_of_decodeCommand h
  cases henc
  rfl

/-- R200 outside ST_IDLE. -/
theorem runFetched_eq_tick_of_not_idle {s : State} (idle : s.regs.status ≠ .idle)
    (cmd : CommandWord) : s.runFetched (fetchCommand cmd) = .next (tick false cmd s) := by
  by_cases pop : cmd = 0x80 ∧ s.regs.status = .decode ∧ s.regs.frValid = true
  · obtain ⟨rfl, status, frame⟩ := pop
    have htick : tick false 0x80 s = s.popFrame := by
      simp only [tick, State.quiet_regs, status, frame]
      rfl
    rw [htick]
    exact execPop_waiting status frame
  · rw [tick_eq_runTick idle fun hcmd waiting => pop ⟨hcmd, waiting⟩]
    refine runFetched_of_not_accepted fun i h hnop accepted => ?_
    obtain ⟨rfl, waiting⟩ := pop_of_accepted (isCommand_of_decodeCommand h) hnop idle accepted
    exact pop ⟨eq_of_decode_pop h, waiting⟩

/-! ### The line of ST_IDLE -/

/-- R89: the words 0x40 to 0x50 are RDBITS of their count. -/
theorem decode_countWord {cmd : CommandWord} (low : 0x40#8 ≤ cmd) (high : cmd ≤ 0x50#8) :
    ∃ i, decode (.command cmd) = .ok i ∧
      ((i = .rdbits ((cmd - 0x40#8).setWidth 5) ∧ ((cmd - 0x40#8).setWidth 5).toNat ≤ 15) ∨
        (i = .rdbits16 ∧ (cmd - 0x40#8).setWidth 5 = 16#5)) := by
  obtain ⟨-, -, counts, largest, -⟩ := commandWordTable
  by_cases h : cmd = 0x50
  · subst h
    exact ⟨_, largest, .inr ⟨rfl, rfl⟩⟩
  · have hcount : ((cmd - 0x40#8).setWidth 5).toNat ≤ 15 := by bv_omega
    have hcmd : 0x40 + ((cmd - 0x40#8).setWidth 5).setWidth 8 = cmd := by bv_omega
    have hdecode := counts _ hcount
    rw [hcmd] at hdecode
    exact ⟨_, hdecode, .inl ⟨rfl, hcount⟩⟩

/-- R89: the words 0x60 to 0x63 are START of their two operand bits. -/
theorem decode_startWord {cmd : CommandWord} (low : 0x60#8 ≤ cmd) (high : cmd ≤ 0x63#8) :
    decode (.command cmd) = .ok (.start (cmd.getLsbD 0) (cmd.getLsbD 1)) := by
  obtain rfl | rfl | rfl | rfl : cmd = 0x60 ∨ cmd = 0x61 ∨ cmd = 0x62 ∨ cmd = 0x63 := by bv_omega
  all_goals rfl

/-- R202 in ST_IDLE: the words of R89's table but POP's, and START's at phase 0 alone. -/
theorem word_of_accepted {cmd : CommandWord} {i : Instr} {s : State} (idle : s.regs.status = .idle)
    (h : decode (.command cmd) = .ok i) (accepted : Claims.accepted i s.regs) :
    cmd = 0x00#8 ∨ cmd = 0x20#8 ∨ cmd = 0x21#8 ∨ (0x40#8 ≤ cmd ∧ cmd ≤ 0x50#8) ∨
      (0x60#8 ≤ cmd ∧ cmd ≤ 0x63#8 ∧ s.regs.phase = false) := by
  obtain nop | setph | count | ⟨low, high⟩ | rfl := listed_of_decodeCommand h
  · exact .inl nop
  · bv_omega
  · exact .inr (.inr (.inr (.inl count)))
  · cases (decode_startWord low high).symm.trans h
    exact .inr (.inr (.inr (.inr ⟨low, high, accepted.2⟩)))
  · cases h
    cases idle.symm.trans accepted.1

/-- R200 in ST_IDLE, by the words its line names. -/
theorem runFetched_eq_tick_of_idle {s : State} (idle : s.regs.status = .idle) (cmd : CommandWord) :
    s.runFetched (fetchCommand cmd) = .next (tick false cmd s) := by
  have htick : tick false cmd s = s.quiet.idleCommand cmd := by simp [tick, idle]
  have still : s.regs.examining = false := by simp [Regs.examining, idle]
  rw [htick, State.idleCommand]
  split_ifs with nop setph0 setph1 count start
  · subst nop
    exact congrArg _ (State.runTick_of_not_examining still)
  · subst setph0
    exact setphWritesPhase s false idle
  · subst setph1
    exact setphWritesPhase s true idle
  · obtain ⟨i, hdecode, row⟩ := decode_countWord count.1 count.2
    rw [fetchCommand_of_decode hdecode]
    exact exec_readBits idle row
  · obtain ⟨low, high, phase⟩ := start
    rw [fetchCommand_of_decode (decode_startWord low high)]
    exact execStart_idle idle phase _ _
  · have refused : ∀ i, decode (.command cmd) = .ok i → i ≠ .nop → ¬ Claims.accepted i s.regs := by
      intro i h _ accepted
      obtain hw | hw | hw | hw | hw := word_of_accepted idle h accepted
      exacts [nop hw, setph0 hw, setph1 hw, count hw, start hw]
    rw [runFetched_of_not_accepted refused, State.noteCommand_of_ne nop]
    exact congrArg _ (State.refuseCommand_of_not_examining still)

/-- R200 for every word and status. -/
theorem runFetched_fetchCommand_eq_tick (cmd : CommandWord) (s : State) :
    s.runFetched (fetchCommand cmd) = .next (tick false cmd s) := by
  by_cases idle : s.regs.status = .idle
  · exact runFetched_eq_tick_of_idle idle cmd
  · exact runFetched_eq_tick_of_not_idle idle cmd

/-- Settles O9, by R200's lines: ST_IDLE, the statuses that accept at most POP, and `rst` = 1. -/
theorem stepIsTick : Obligations.StepIsTick := by
  refine fun s cmd rest => ⟨fun input => ?_, fun input => ?_⟩
  · rw [step_of_command input, runFetched_fetchCommand_eq_tick]
  · rw [step_of_reset input]
    rfl

end Sys2Proof.Machine

/-! # The marks of a session (60_exceptions.md): what R246 records stays until a reset -/

namespace Sys2Proof.Machine

/-! ## The marks on registers (R34, R35) -/

/-- Neither the refusal mark nor the violation mark is lost on the way from `r` to `r'`. -/
structure Regs.KeepsMarks (r r' : Regs) : Prop where
  cmdErr : r.cmdErr = true → r'.cmdErr = true
  violSeen : r.violSeen = true → r'.violSeen = true

namespace Regs.KeepsMarks

theorem refl (r : Regs) : r.KeepsMarks r := ⟨id, id⟩

theorem trans {r r' r'' : Regs} (h : r.KeepsMarks r') (h' : r'.KeepsMarks r'') : r.KeepsMarks r'' :=
  ⟨h'.cmdErr ∘ h.cmdErr, h'.violSeen ∘ h.violSeen⟩

/-- R35: a refusal only sets its mark. -/
theorem markCmdErr (r : Regs) : r.KeepsMarks r.markCmdErr := ⟨fun _ => rfl, id⟩

theorem beginRaw (c : BitVec 5) (r : Regs) : r.KeepsMarks (r.beginRaw c) := by
  unfold Regs.beginRaw
  split <;> exact ⟨id, id⟩

theorem beginDecode (b k : Bool) (r : Regs) : r.KeepsMarks (r.beginDecode b k) := by
  cases b <;> exact ⟨id, id⟩

end Regs.KeepsMarks

/-! ## The marks in one step -/

/-- R111: the end of the capture, a yielding sample and a skipped one. -/
theorem State.advanceOn_keepsMarks (o : Option Sample) (s : State) :
    s.regs.KeepsMarks (s.advanceOn o).regs := by
  refine ⟨fun h => (s.advanceOn_cmdErr o).trans h, fun h => ?_⟩
  cases o with
  | none => exact s.regs.endOfStream_violSeen.trans h
  | some x =>
    cases hy : s.regs.yields x with
    | true => rw [State.advanceOn_yield hy]; exact Regs.acceptBit_violSeen _ _ (s.regs.examine x) h
    | false => rw [State.advanceOn_skip hy]; exact h

theorem State.runTick_keepsMarks (s : State) : s.regs.KeepsMarks s.runTick.regs := by
  unfold State.runTick
  split
  · exact s.advanceOn_keepsMarks _
  · exact .refl _

theorem CommandTick.keepsMarks {s t : State} (h : CommandTick s t) : s.regs.KeepsMarks t.regs := by
  cases h with
  | nop => exact s.runTick_keepsMarks
  | refused =>
    exact (Regs.KeepsMarks.markCmdErr s.regs).trans
      (State.runTick_keepsMarks { s with regs := s.regs.markCmdErr })
  | setph | pop => exact ⟨id, id⟩
  | rdbits c => exact .beginRaw c s.regs
  | start b r => exact .beginDecode b r s.regs

/-- One bit of a body is a chain of `Advance`s (log 5). -/
theorem State.takeBit_keepsMarks (b : Bool) (xs : List Sample) (s : State) :
    s.regs.KeepsMarks (s.takeBit b xs).regs := by
  induction xs generalizing s with
  | nil => exact s.advanceOn_keepsMarks none
  | cons x xs ih =>
    simp only [State.takeBit]
    split
    · exact s.advanceOn_keepsMarks _
    · exact (s.advanceOn_keepsMarks _).trans (ih _)

theorem State.deliver_keepsMarks (s : State) (b : Bool) : s.regs.KeepsMarks (s.deliver b).regs := by
  unfold State.deliver
  split
  · exact s.takeBit_keepsMarks b _
  · exact .refl _

theorem State.deliverAll_keepsMarks (bits : List Bool) (s : State) :
    s.regs.KeepsMarks (s.deliverAll bits).regs := by
  induction bits generalizing s with
  | nil => exact .refl _
  | cons b bs ih => exact (s.deliver_keepsMarks b).trans (ih _)

/-! ## From one reset to the next (R246) -/

/-- A flag that would have been kept was clear before where it is clear after. -/
theorem eq_false_of_imp {a b : Bool} (kept : a = true → b = true) (hb : b = false) : a = false :=
  Bool.eq_false_iff.mpr fun ha => Bool.eq_false_iff.mp hb (kept ha)

section NoReset

variable {s t : State} (h : step s = .next t) (noReset : ∀ w c rest, s.inbox ≠ .reset w c :: rest)

include h noReset

theorem step_keepsMarks : s.regs.KeepsMarks t.regs := by
  cases step_cases h with
  | reset w c rest input => exact absurd input (noReset w c rest)
  | command tick => exact tick.keepsMarks
  | body rest input bits tick => exact tick ▸ State.deliverAll_keepsMarks bits s.takeInput

/-- R147, on the status alone. -/
theorem step_keeps_terminal_status {st : Status} (terminal : st.terminal = true)
    (hs : s.regs.status = st) : t.regs.status = st := by
  obtain ⟨w, c, rest, input⟩ | ⟨w, rest, -, -, rfl⟩ | ⟨-, rfl⟩ :=
    terminalStatusAbsorbs s t (hs ▸ terminal) h
  · exact absurd input (noReset w c rest)
  · exact hs
  · exact hs

/-- Each cause of an unclean session would still show after the step. -/
theorem cleanSession_of_step (clean : t.cleanSession = true) : s.cleanSession = true := by
  obtain ⟨hcmd, hviol, htrunc, hpre, hstart, hmode⟩ := t.cleanSession_iff.mp clean
  have marks : s.regs.KeepsMarks t.regs := step_keepsMarks h noReset
  have before {st : Status} (terminal : st.terminal = true) : t.regs.status ≠ st → s.regs.status ≠ st :=
    mt (step_keeps_terminal_status h noReset terminal)
  exact s.cleanSession_iff.mpr
    ⟨eq_false_of_imp marks.cmdErr hcmd, eq_false_of_imp marks.violSeen hviol,
      before rfl htrunc, before rfl hpre, before rfl hstart, before rfl hmode⟩

end NoReset

/-- Settles O45: the two flags by the kinds of step, the status by R147. -/
theorem marksAreSticky : Obligations.MarksAreSticky := fun _ _ h noReset =>
  have marks := step_keepsMarks h noReset
  ⟨marks.cmdErr, marks.violSeen, fun terminal => step_keeps_terminal_status h noReset terminal rfl⟩

/-! ## The ends of a session (R246, U1) -/

theorem State.endedClean_iff (s : State) : s.endedClean = true ↔ s.regs.status = .doneClean :=
  beq_iff_eq

theorem State.endedTruncated_iff (s : State) :
    s.endedTruncated = true ↔ s.regs.status = .doneTrunc := beq_iff_eq

theorem State.constructionFault_iff (s : State) :
    s.constructionFault = true ↔ s.regs.status = .errMode := beq_iff_eq

theorem State.sessionFault_iff (s : State) :
    s.sessionFault = true ↔ s.regs.status = .errPreamble ∨ s.regs.status = .errStart := by
  simp [State.sessionFault]

/-- U1: a clean end is not a truncated one. -/
theorem State.not_endedTruncated_of_endedClean {s : State} (h : s.endedClean = true) :
    s.endedTruncated = false :=
  Bool.eq_false_iff.mpr fun trunc =>
    Bool.eq_false_iff.mp (State.not_endedClean_of_endedTruncated trunc).1 h

/-- Settles O53: the clean session by its registers, each end and fault by its terminal status. -/
theorem uncleanSessionStaysUnclean : Obligations.UncleanSessionStaysUnclean := by
  refine ⟨State.cleanSession_iff, fun s t h noReset => ?_⟩
  have keeps {st : Status} (terminal : st.terminal = true) : s.regs.status = st → t.regs.status = st :=
    step_keeps_terminal_status h noReset terminal
  refine ⟨?_, fun trunc => ?_, fun clean => ?_, ?_, ?_⟩
  · exact eq_false_of_imp (cleanSession_of_step h noReset)
  · have htrunc := t.endedTruncated_iff.mpr (keeps rfl (s.endedTruncated_iff.mp trunc))
    exact ⟨htrunc, State.not_endedClean_of_endedTruncated htrunc⟩
  · have hclean := t.endedClean_iff.mpr (keeps rfl (s.endedClean_iff.mp clean))
    exact ⟨hclean, State.not_endedTruncated_of_endedClean hclean⟩
  · rw [State.sessionFault_iff, State.sessionFault_iff]
    exact Or.imp (keeps rfl) (keeps rfl)
  · rw [State.constructionFault_iff, State.constructionFault_iff]
    exact keeps rfl

end Sys2Proof.Machine
